-- ==== Sys2Proof/Word.lean ====
section
/-! DEFINITION. The words of the spec (00_scope.md R10, R12) and the two closed operand types that
instructions carry: the transfer direction and nothing else. -/

namespace Sys2Proof

/-- `Byte` = `Bits8` (R12). -/
abbrev Byte := BitVec 8

/-- A controller register, a command word, a bit-rate word: 16 bits (R10, R58). -/
abbrev Word16 := BitVec 16

/-- A controller register offset, 0 to 7 (R10 `REG_OFFSET_BITS`, R41). -/
abbrev Offset := BitVec 3

/-- A slave address, 0 to 127 (R10 `ADDR_BITS`; R134: a wider value cannot be written down). -/
abbrev SlaveAddr := BitVec 7

/-- The direction of a session (R24): `write` is master transmitter, `read` is master receiver. -/
inductive Dir where
  | write
  | read
  deriving DecidableEq, Repr

end Sys2Proof
end

