-- ==== Sys2Proof/Config.lean ====
section
/-! DEFINITION. What an implementation fixes (the parameters of 00_scope.md R11), and the free values: the
bus environment's answers and the interleaving of the two agents. -/

namespace Sys2Proof

/-- The two agents (00_scope.md R9). -/
inductive Agent where
  | host
  | environment
  deriving DecidableEq, Repr, Inhabited

/-- The environment's answer to START (41_bus_commands.md R83). -/
inductive StartDraw where
  | owned
  | arbLost
  deriving DecidableEq, Repr, Inhabited

/-- The environment's answer to SEND (41_bus_commands.md R83). -/
inductive AckDraw where
  | ack
  | nack
  deriving DecidableEq, Repr, Inhabited

/-- One draw from the environment oracle; a completion reads the part its command needs (R83). -/
structure Draw where
  start : StartDraw
  ack : AckDraw
  byte : Byte
  deriving DecidableEq, Repr, Inhabited

/-- The twelve status names (30_encoding.md R66). -/
inductive Status where
  | start
  | repeatedStart
  | mtSlaAck
  | mtSlaNack
  | mtDataAck
  | mtDataNack
  | arbLost
  | mrSlaAck
  | mrSlaNack
  | mrDataAck
  | mrDataNack
  | noInfo
  deriving DecidableEq, Repr

/-- The two readings of the divisor formula (40_clock_configurator.md R75). -/
inductive ClockDivReading where
  | termwise
  | exact
  deriving DecidableEq, Repr

/-- FREE VALUE (log entry 2). The environment's answer at step `n`: nothing constrains it (R83). -/
opaque Config.draw : Nat → Draw

/-- FREE VALUE (log entry 1). Who moves next after step `n`, when both agents can (R136). It may name
the host for ever, which is a command that never completes (R83, R137). -/
opaque Config.nextTurn : Nat → Agent

/-- The parameter `STATUS_CODE` (00_scope.md R11; log entry 4): the numeric code of each status name. The
implementation decides it and nothing in the model does; `Machine.statusCode` holds it to distinct codes. -/
opaque Config.statusCode : Status → Byte

/-- `BITRATE_RESET` (00_scope.md R11b). DESIGN CHOICE (log entry 5): the spec leaves the value open and
says that it is never observable. -/
def Config.bitrateReset : Word16 := 0

/-- `CLOCK_DIV_READING` (93_implementation_defined.md): the spec's default, log entry 6. -/
def Config.clockDivReading : ClockDivReading := .termwise

end Sys2Proof
end

