-- ==== Sys2Proof/Syntax.lean ====
section
/-! DEFINITION. The instructions: one constructor per row of opcode_table.json, in the table's order.
A register-level command, a bit-rate write, a host function and a mini-language character are all rows
of that table. -/

namespace Sys2Proof

inductive Instr where
  /-- R85: START, CMD16 0x0100. -/
  | start
  /-- R87: SEND(b), CMD16 `0x0200 | b`. -/
  | send (b : Byte)
  /-- R89: RECV_ACK, CMD16 0x0300. -/
  | recvAck
  /-- R90: RECV_NACK, CMD16 0x0400. -/
  | recvNack
  /-- R91: STOP, CMD16 0x0500. -/
  | stop
  /-- R61: a CMD word that spells no command. -/
  | reservedCommandWord (w : Word16)
  /-- R79: a BITRATE write of `brword(p, d)`. -/
  | bitrateWrite (p : BitVec 2) (d : Byte)
  /-- R96: host function. -/
  | startCondition
  /-- R97: host function. -/
  | addressedStart (a : SlaveAddr) (d : Dir)
  /-- R98: host function. -/
  | retryingAddressedStart (a : SlaveAddr) (d : Dir)
  /-- R99: host function. -/
  | writeByte (v : Byte)
  /-- R100: host function. -/
  | readByteRequestMore
  /-- R101: host function. -/
  | readByteLastByte
  /-- R102: host function. -/
  | stopCondition
  /-- R74: host function; both in hertz. -/
  | computeClockParameters (base target : Nat)
  /-- R80: host function; both in hertz. -/
  | setup (base target : Nat)
  /-- R104: host function. -/
  | run (cmdStr readTargets writeValues : List Byte)
  /-- R109: token `{` (0x7B). -/
  | startBrace
  /-- R110: token `[` (0x5B). -/
  | startBracket
  /-- R111: token `}` (0x7D). -/
  | stopBrace
  /-- R112: token `]` (0x5D). -/
  | stopBracket
  /-- R113: token `x` (0x78). -/
  | radix16
  /-- R114: token `b` (0x62). -/
  | radix2
  /-- R115: token `r` (0x72). -/
  | readMoreLower
  /-- R116: token `R` (0x52). -/
  | readMoreUpper
  /-- R117: token `s` (0x73). -/
  | readLastLower
  /-- R118: token `S` (0x53). -/
  | readLastUpper
  /-- R119: token `w` (0x77). -/
  | writeNextLower
  /-- R120: token `W` (0x57). -/
  | writeNextUpper
  /-- R121: token ` ` (0x20). -/
  | delimitSpace
  /-- R122: token `,` (0x2C). -/
  | delimitComma
  /-- R123: token `&` (0x26). -/
  | delay1us
  /-- R124: token `0` (0x30). -/
  | digit0
  /-- R124: token `1` (0x31). -/
  | digit1
  /-- R124: token `2` (0x32). -/
  | digit2
  /-- R124: token `3` (0x33). -/
  | digit3
  /-- R124: token `4` (0x34). -/
  | digit4
  /-- R124: token `5` (0x35). -/
  | digit5
  /-- R124: token `6` (0x36). -/
  | digit6
  /-- R124: token `7` (0x37). -/
  | digit7
  /-- R124: token `8` (0x38). -/
  | digit8
  /-- R124: token `9` (0x39). -/
  | digit9
  /-- R124: token `a` (0x61). -/
  | digitLowerA
  /-- R124: token `c` (0x63). -/
  | digitLowerC
  /-- R124: token `d` (0x64). -/
  | digitLowerD
  /-- R124: token `e` (0x65). -/
  | digitLowerE
  /-- R124: token `f` (0x66). -/
  | digitLowerF
  /-- R124: token `A` (0x41). -/
  | digitUpperA
  /-- R124: token `B` (0x42). -/
  | digitUpperB
  /-- R124: token `C` (0x43). -/
  | digitUpperC
  /-- R124: token `D` (0x44). -/
  | digitUpperD
  /-- R124: token `E` (0x45). -/
  | digitUpperE
  /-- R124: token `F` (0x46). -/
  | digitUpperF
  /-- R125: a byte no earlier row of R67 matches. -/
  | ignore (b : Byte)
  deriving DecidableEq, Repr

end Sys2Proof
end

