-- ==== Sys2Proof/WellFormed.lean ====
section
/-! DEFINITION. When a term of `Instr` is one the spec's encodings can spell. Operand ranges are in the
types (60_exceptions.md R134); two rows are defined by what the other rows leave over, and those two
carry a check. -/

namespace Sys2Proof

/-- The word matches a command's row of 30_encoding.md R60 (its mask and its match). -/
def isCommandWord (w : Word16) : Bool :=
  w == 0x0100 || (w &&& 0xFF00) == 0x0200 || w == 0x0300 || w == 0x0400 || w == 0x0500

/-- The codes of every token row of 30_encoding.md R67 before the last: fifteen tokens, then digits. -/
def namedCharacters : List Byte :=
  [0x7B, 0x5B, 0x7D, 0x5D, 0x78, 0x62, 0x72, 0x52, 0x73, 0x53, 0x77, 0x57, 0x20, 0x2C, 0x26,
   0x30, 0x31, 0x32, 0x33, 0x34, 0x35, 0x36, 0x37, 0x38, 0x39,
   0x61, 0x63, 0x64, 0x65, 0x66, 0x41, 0x42, 0x43, 0x44, 0x45, 0x46]

/-- The byte is matched by a row of R67 before the last one (under some radix). -/
def isNamedCharacter (b : Byte) : Bool := namedCharacters.contains b

/-- Well-formedness, one line per constructor. -/
def Instr.wellFormed : Instr → Bool
  | .start => true
  | .send _ => true
  | .recvAck => true
  | .recvNack => true
  | .stop => true
  | .reservedCommandWord w => !isCommandWord w
  | .bitrateWrite _ _ => true
  | .startCondition => true
  | .addressedStart _ _ => true
  | .retryingAddressedStart _ _ => true
  | .writeByte _ => true
  | .readByteRequestMore => true
  | .readByteLastByte => true
  | .stopCondition => true
  | .computeClockParameters _ _ => true
  | .setup _ _ => true
  | .run _ _ _ => true
  | .startBrace => true
  | .startBracket => true
  | .stopBrace => true
  | .stopBracket => true
  | .radix16 => true
  | .radix2 => true
  | .readMoreLower => true
  | .readMoreUpper => true
  | .readLastLower => true
  | .readLastUpper => true
  | .writeNextLower => true
  | .writeNextUpper => true
  | .delimitSpace => true
  | .delimitComma => true
  | .delay1us => true
  | .digit0 => true
  | .digit1 => true
  | .digit2 => true
  | .digit3 => true
  | .digit4 => true
  | .digit5 => true
  | .digit6 => true
  | .digit7 => true
  | .digit8 => true
  | .digit9 => true
  | .digitLowerA => true
  | .digitLowerC => true
  | .digitLowerD => true
  | .digitLowerE => true
  | .digitLowerF => true
  | .digitUpperA => true
  | .digitUpperB => true
  | .digitUpperC => true
  | .digitUpperD => true
  | .digitUpperE => true
  | .digitUpperF => true
  | .ignore b => !isNamedCharacter b

/-- `Instr.wellFormed` as a proposition. -/
abbrev Instr.WellFormed (i : Instr) : Prop := i.wellFormed = true

end Sys2Proof
end

