-- ==== Sys2Proof/Decode.lean ====
section
/-! DEFINITION. Decoding and encoding (30_encoding.md). Bits are taken apart here, once. An instruction
reaches the hardware in one of three presentations: a write to a controller register, a character of the
command string, or a call of a host function. `decode` is total on them and rejects by name. -/

namespace Sys2Proof

/-- A host function of the opcode table with its arguments (30_encoding.md R72; R104). -/
inductive HostFunction where
  | startCondition
  | addressedStart (a : SlaveAddr) (d : Dir)
  | retryingAddressedStart (a : SlaveAddr) (d : Dir)
  | writeByte (v : Byte)
  | readByteRequestMore
  | readByteLastByte
  | stopCondition
  | computeClockParameters (base target : Nat)
  | setup (base target : Nat)
  | run (cmdStr readTargets writeValues : List Byte)
  deriving DecidableEq, Repr

/-- How an instruction is presented: `RegWrite(off, v)` (CMD16 or BR16), one CHR8 byte of the command
string, or a call. -/
inductive Presentation where
  | write (off : Offset) (v : Word16)
  | character (b : Byte)
  | call (f : HostFunction)
  deriving DecidableEq, Repr

/-- Why a register write is no instruction, in the order of R44 and R79. -/
inductive Reject where
  /-- Offsets 5 to 7 (R44). -/
  | unmappedRegister
  /-- STATUS, DATA or FLAGS (R44). -/
  | readOnlyRegister
  /-- A BITRATE word with bits `[15:10]` nonzero (R65). -/
  | reservedField
  deriving DecidableEq, Repr

/-! ## Fields -/

/-- `v[7:0]`: the operand of CMD16 (R59), the divisor of BR16 (R65). -/
def lowByte (v : Word16) : Byte := v.extractLsb' 0 8

/-- `v[9:8]` of BR16 (R65). -/
def prescalerField (v : Word16) : BitVec 2 := v.extractLsb' 8 2

/-- `v[15:10]` of BR16, the reserved bits (R65). -/
def reservedField (v : Word16) : BitVec 6 := v.extractLsb' 10 6

/-- `brword(p, d) = (p << 8) | d` (R65). -/
def brword (p : BitVec 2) (d : Byte) : Word16 := (0 : BitVec 6) ++ p ++ d

/-- `0x0200 | b`: the CMD16 word of SEND (R62). -/
def sendWord (b : Byte) : Word16 := (0x02 : Byte) ++ b

/-! ## Command words (CMD16) -/

/-- R61, in its order; every word the five patterns miss is the reserved row. -/
def decodeCommand (w : Word16) : Instr :=
  if w = 0x0100 then .start
  else if w &&& 0xFF00 = 0x0200 then .send (lowByte w)
  else if w = 0x0300 then .recvAck
  else if w = 0x0400 then .recvNack
  else if w = 0x0500 then .stop
  else .reservedCommandWord w

/-! ## Mini-language characters (CHR8) -/

/-- The token table of R67 in the source's row order, digits in the order of R69. -/
def tokenTable : List (Byte × Instr) :=
  [(0x7B, .startBrace),
   (0x5B, .startBracket),
   (0x7D, .stopBrace),
   (0x5D, .stopBracket),
   (0x78, .radix16),
   (0x62, .radix2),
   (0x72, .readMoreLower),
   (0x52, .readMoreUpper),
   (0x73, .readLastLower),
   (0x53, .readLastUpper),
   (0x77, .writeNextLower),
   (0x57, .writeNextUpper),
   (0x20, .delimitSpace),
   (0x2C, .delimitComma),
   (0x26, .delay1us)]
  ++
  [(0x30, .digit0),
   (0x31, .digit1),
   (0x32, .digit2),
   (0x33, .digit3),
   (0x34, .digit4),
   (0x35, .digit5),
   (0x36, .digit6),
   (0x37, .digit7),
   (0x38, .digit8),
   (0x39, .digit9),
   (0x61, .digitLowerA),
   (0x63, .digitLowerC),
   (0x64, .digitLowerD),
   (0x65, .digitLowerE),
   (0x66, .digitLowerF),
   (0x41, .digitUpperA),
   (0x42, .digitUpperB),
   (0x43, .digitUpperC),
   (0x44, .digitUpperD),
   (0x45, .digitUpperE),
   (0x46, .digitUpperF)]

/-- R67: the first row that matches the byte. A digit's row is chosen whatever the radix; its meaning
tests the radix and does nothing where R69 does not allow the digit (log entry 10). -/
def decodeToken (b : Byte) : Instr :=
  match tokenTable.lookup b with
  | some i => i
  | none => .ignore b

/-- `DIGIT_VALUE` (R69): the value of a digit character; `b` is no digit (R68). -/
def digitValue (b : Byte) : Option Nat :=
  if 0x30 ≤ b.toNat ∧ b.toNat ≤ 0x39 then some (b.toNat - 0x30)
  else if b.toNat = 0x62 then none
  else if 0x61 ≤ b.toNat ∧ b.toNat ≤ 0x66 then some (b.toNat - 0x61 + 10)
  else if 0x41 ≤ b.toNat ∧ b.toNat ≤ 0x46 then some (b.toNat - 0x41 + 10)
  else none

/-! ## Host functions -/

/-- A call names its row of the opcode table. -/
def decodeCall : HostFunction → Instr
  | .startCondition => .startCondition
  | .addressedStart a d => .addressedStart a d
  | .retryingAddressedStart a d => .retryingAddressedStart a d
  | .writeByte v => .writeByte v
  | .readByteRequestMore => .readByteRequestMore
  | .readByteLastByte => .readByteLastByte
  | .stopCondition => .stopCondition
  | .computeClockParameters base target => .computeClockParameters base target
  | .setup base target => .setup base target
  | .run cmdStr readTargets writeValues => .run cmdStr readTargets writeValues

/-! ## The decoder -/

/-- `RegWrite(off, v)` as an instruction (R44): CMD and BITRATE accept one, the rest reject by name. -/
def decodeWrite (off : Offset) (v : Word16) : Except Reject Instr :=
  if off = 0 then .ok (decodeCommand v)
  else if off = 3 then
    if reservedField v = 0 then .ok (.bitrateWrite (prescalerField v) (lowByte v))
    else .error .reservedField
  else if 5 ≤ off.toNat then .error .unmappedRegister
  else .error .readOnlyRegister

/-- The instruction a presentation spells. -/
def decode : Presentation → Except Reject Instr
  | .write off v => decodeWrite off v
  | .character b => .ok (decodeToken b)
  | .call f => .ok (decodeCall f)

/-! ## The encoder (R62, R65, R67) -/

/-- The presentation of an instruction. -/
def encode : Instr → Presentation
  | .start => .write 0 0x0100
  | .send b => .write 0 (sendWord b)
  | .recvAck => .write 0 0x0300
  | .recvNack => .write 0 0x0400
  | .stop => .write 0 0x0500
  | .reservedCommandWord w => .write 0 w
  | .bitrateWrite p d => .write 3 (brword p d)
  | .startCondition => .call .startCondition
  | .addressedStart a d => .call (.addressedStart a d)
  | .retryingAddressedStart a d => .call (.retryingAddressedStart a d)
  | .writeByte v => .call (.writeByte v)
  | .readByteRequestMore => .call .readByteRequestMore
  | .readByteLastByte => .call .readByteLastByte
  | .stopCondition => .call .stopCondition
  | .computeClockParameters base target => .call (.computeClockParameters base target)
  | .setup base target => .call (.setup base target)
  | .run cmdStr readTargets writeValues => .call (.run cmdStr readTargets writeValues)
  | .startBrace => .character 0x7B
  | .startBracket => .character 0x5B
  | .stopBrace => .character 0x7D
  | .stopBracket => .character 0x5D
  | .radix16 => .character 0x78
  | .radix2 => .character 0x62
  | .readMoreLower => .character 0x72
  | .readMoreUpper => .character 0x52
  | .readLastLower => .character 0x73
  | .readLastUpper => .character 0x53
  | .writeNextLower => .character 0x77
  | .writeNextUpper => .character 0x57
  | .delimitSpace => .character 0x20
  | .delimitComma => .character 0x2C
  | .delay1us => .character 0x26
  | .digit0 => .character 0x30
  | .digit1 => .character 0x31
  | .digit2 => .character 0x32
  | .digit3 => .character 0x33
  | .digit4 => .character 0x34
  | .digit5 => .character 0x35
  | .digit6 => .character 0x36
  | .digit7 => .character 0x37
  | .digit8 => .character 0x38
  | .digit9 => .character 0x39
  | .digitLowerA => .character 0x61
  | .digitLowerC => .character 0x63
  | .digitLowerD => .character 0x64
  | .digitLowerE => .character 0x65
  | .digitLowerF => .character 0x66
  | .digitUpperA => .character 0x41
  | .digitUpperB => .character 0x42
  | .digitUpperC => .character 0x43
  | .digitUpperD => .character 0x44
  | .digitUpperE => .character 0x45
  | .digitUpperF => .character 0x46
  | .ignore b => .character b

/-! ## The table's own numbering -/

/-- The reader of the table gave a digit row bits above its character, made from the row's metadata
(98_reader.md: the spec's words win); those bits, clear or set, are no part of the character.
For the letter digits the made bit is the bit numbered by the digit's value (log entry 11). -/
def paddedLetterDigit (w : Nat) : Option Instr :=
  match digitValue (BitVec.ofNat 8 w) with
  | some v =>
    if 10 ≤ v ∧ (w / 256 = 0 ∨ w / 256 = 2 ^ (v - 8)) then some (decodeToken (BitVec.ofNat 8 w))
    else none
  | none => none

/-- A 16-bit table word does not say which register it is written to. A word that spells a command is
one; then a padded letter digit; then a bit-rate word; what is left is the reserved row (log entry 11). -/
def decodeTableWord16 (w : Nat) : Instr :=
  match decodeCommand (BitVec.ofNat 16 w) with
  | .reservedCommandWord v =>
    match paddedLetterDigit w with
    | some i => i
    | none =>
      if reservedField v = 0 then .bitrateWrite (prescalerField v) (lowByte v)
      else .reservedCommandWord v
  | i => i

/-- The instruction the decoder reads from a row of the opcode table whose bits are `w`: 8-bit rows are
characters, 16-bit rows register words, and the two 24-bit rows are the digits 8 and 9 with the bits the
reader made for them. -/
def decodeTableWord (nbits w : Nat) : Option Instr :=
  if nbits ≤ 8 then some (decodeToken (BitVec.ofNat 8 w))
  else if nbits ≤ 16 then some (decodeTableWord16 w)
  else if nbits ≤ 24 ∧ (w % 256 = 0x38 ∨ w % 256 = 0x39) then some (decodeToken (BitVec.ofNat 8 w))
  else none

end Sys2Proof
end

