-- ==== Sys2Proof/Machine/State.lean ====
section
/-! DEFINITION. The state of the machine (10_state.md): the controller record `C`, the interpreter record
`S`, the host's thread, and the model's own two fields that pace the free values. Plain data only. -/

namespace Sys2Proof.Machine

/-- The session phase (R20). -/
inductive Phase where
  | idle
  | started
  | addressed
  | transferring
  | stopped
  deriving DecidableEq, Repr

/-- The two read modes (00_scope.md R17, R100, R101). -/
inductive ReadMode where
  | requestMore
  | lastByte
  deriving DecidableEq, Repr

/-- A controller command in flight (R26, R60). -/
inductive Command where
  | start
  | send (b : Byte)
  | recvAck
  | recvNack
  | stop
  deriving DecidableEq, Repr

/-- An event of the observation trace (R39). -/
inductive Event where
  | start (st : Status)
  | send (b : Byte) (st : Status)
  | recv (mode : ReadMode) (b : Byte) (st : Status)
  | stop
  | delay1us
  deriving DecidableEq, Repr

/-- `FaultReason` (60_exceptions.md R131). A rule that raises one records it in `Controller.fault`
(R132); a machine that holds one takes no further step and answers it (log entry 3). All twelve are safe:
each marks a host action to which the source gives no meaning. -/
inductive Fault where
  /-- Raised by the reserved_command_word row (R61, R81). Safe. -/
  | reservedCommand
  /-- Raised by every command before the first BITRATE write (R81). Safe. -/
  | unconfigured
  /-- Raised by every command while one is in flight (R81). Safe. -/
  | commandWhileBusy
  /-- Raised by a SEND or RECV outside its phases or direction (R82). Safe. -/
  | protocolMisuse
  /-- Raised by a BITRATE write while a command is in flight (R79). Safe. -/
  | writeWhileBusy
  /-- Raised by a BITRATE write with bits `[15:10]` nonzero (R79). Safe. -/
  | reservedField
  /-- Raised by a STATUS or DATA read while a command is in flight (R43). Safe. -/
  | readWhileBusy
  /-- Raised by a DATA read before any SEND or RECV, a BITRATE read before setup
  (R43, R30, R31, R131, decision D17). Safe. -/
  | unwrittenRegister
  /-- Raised by an access to offset 5, 6 or 7 (R43, R44). Safe. -/
  | unmappedRegister
  /-- Raised by a write to STATUS, DATA or FLAGS (R44). Safe. -/
  | readOnlyWrite
  /-- Raised by a read or write token with no operand left (R107, R119). Safe. -/
  | operandUnderflow
  /-- Raised at the end of a run with operands left over (R108). Safe. -/
  | operandSurplus
  deriving DecidableEq, Repr

/-- Why an instruction has no meaning in the model. -/
inductive Refusal where
  /-- Raised by an arm of `exec` whose instruction is not modelled yet; no arm is left so. Safe. -/
  | notModelled (mnemonic : String)
  deriving DecidableEq, Repr

/-- The controller record `C`: exactly the fields of R18. -/
structure Controller where
  phase : Phase
  direction : Option Dir
  addrPending : Bool
  inflight : Option Command
  status : Status
  /-- `none` is the spec's own "never written" (R18, R30). -/
  data : Option Byte
  configured : Bool
  prescalerExponent : BitVec 2
  divisor : Byte
  fault : Option Fault
  trace : List Event
  deriving DecidableEq, Repr

/-- `radix ∈ {2, 10, 16}` (R35). -/
inductive Radix where
  | two
  | ten
  | sixteen
  deriving DecidableEq, Repr

/-- The Command Interpreter's record `S` (R35). It lives for one run (R36): `Interp.outside` is what
stands here outside one. -/
structure Interp where
  cmdStr : List Byte
  cursor : Nat
  radix : Radix
  acc : Nat
  pending : Bool
  readCount : Nat
  readIdx : Nat
  writeIdx : Nat
  readTargets : List Byte
  writeValues : List Byte
  deriving DecidableEq, Repr

/-- Who called a Bus Driver primitive: the host program itself, or a token of the interpreter, which
goes on with what its rule says after the primitive (R106, R107, R109, R111). -/
inductive Caller where
  | host
  | interpreter
  deriving DecidableEq, Repr

/-- Where a host function waits in `await_complete()` (R94): what its rule does once COMPLETE reads 1. -/
inductive Point where
  /-- The host program's own `await_complete()` (R94). -/
  | awaitComplete
  /-- `startCondition` after START (R96). -/
  | startCondition
  /-- `addressedStart` after START (R97). -/
  | addressedStart (a : SlaveAddr) (d : Dir)
  /-- `addressedStart` after SEND (R97). -/
  | addressedSend
  /-- `retryingAddressedStart` after START (R98). -/
  | retryStart (a : SlaveAddr) (d : Dir)
  /-- `retryingAddressedStart` after SEND (R98). -/
  | retrySend (a : SlaveAddr) (d : Dir)
  /-- `retryingAddressedStart` after STOP (R98). -/
  | retryStop (a : SlaveAddr) (d : Dir)
  /-- `writeByte` after SEND (R99). -/
  | writeByte
  /-- `readByte(mode)` after RECV (R100, R101). -/
  | readByte
  /-- `stopCondition` after STOP (R102). -/
  | stopCondition
  deriving DecidableEq, Repr

/-- A wait in progress. -/
structure Await where
  point : Point
  caller : Caller
  deriving DecidableEq, Repr

/-- The host thread's place: between actions (or between tokens), or spinning in `await_complete()`. -/
inductive Control where
  | ready
  | polling (k : Await)
  deriving DecidableEq, Repr

/-- The result of `computeClockParameters` (40_clock_configurator.md R74). -/
inductive ClockResult where
  | ok (p : BitVec 2) (d : Byte)
  | unreachableBitrate
  deriving DecidableEq, Repr

/-- What a host function or a register read returns (42_bus_driver.md, R43, R74, R80, R104). -/
inductive ReturnValue where
  /-- A function with no result (R94, R98, R102). -/
  | unit
  /-- R96, R97, R99. -/
  | bool (b : Bool)
  /-- R100, R101. -/
  | byte (b : Byte)
  /-- `RegRead` (R43). -/
  | word (v : Word16)
  /-- `computeClockParameters` (R74). -/
  | clock (r : ClockResult)
  /-- `setup`: `true` is Ok, `false` is Err(UnreachableBitrate) (R80). -/
  | setup (ok : Bool)
  /-- `run` (R104). -/
  | readCount (n : Nat)
  deriving DecidableEq, Repr

/-- One action of the host program (00_scope.md R14): a register access, the wait of R94, or a call. -/
inductive Action where
  | regRead (off : Offset)
  | regWrite (off : Offset) (v : Word16)
  | awaitComplete
  | call (f : HostFunction)
  deriving DecidableEq, Repr

/-- The machine. `ctl` and `interp` are the spec's `C` and `S`; `running`, `control`, `program` and
`returned` are the host's one thread (R9); `turn` and `tick` pace the free values of `Config` (log
entries 1 and 2). -/
structure State where
  ctl : Controller
  interp : Interp
  running : Bool
  control : Control
  program : List Action
  returned : Option ReturnValue
  turn : Agent
  tick : Nat
  deriving DecidableEq, Repr

/-- The controller after reset (R18; 70_reset_and_hazards.md R143). The bit-rate fields hold
`BITRATE_RESET`, DESIGN CHOICE (log entry 5). -/
def Controller.reset : Controller where
  phase := .idle
  direction := none
  addrPending := false
  inflight := none
  status := .noInfo
  data := none
  configured := false
  prescalerExponent := prescalerField Config.bitrateReset
  divisor := lowByte Config.bitrateReset
  fault := none
  trace := []

/-- `S` at the start of a run (R35, R104). -/
def Interp.initial (cmdStr readTargets writeValues : List Byte) : Interp where
  cmdStr := cmdStr
  cursor := 0
  radix := .ten
  acc := 0
  pending := false
  readCount := 0
  readIdx := 0
  writeIdx := 0
  readTargets := readTargets
  writeValues := writeValues

/-- What is left of `S` outside a run (10_state.md R36; 70_reset_and_hazards.md R145): the record is
discarded, and only the caller's own read slots keep their contents (log entry 7). -/
def Interp.outside (slots : List Byte) : Interp := Interp.initial [] slots []

/-- The machine right after reset (R143, R144): the controller's reset record, no run, and a host that
has made no access yet. -/
def State.reset : State where
  ctl := Controller.reset
  interp := Interp.outside []
  running := false
  control := .ready
  program := []
  returned := none
  turn := .host
  tick := 0

end Sys2Proof.Machine
end

