-- ==== Sys2Proof/Machine/Flags.lean ====
section
/-! DEFINITION. Every flag and status computation of the spec: the FLAGS word, the numeric status codes,
and the statuses the Bus Driver tests for. -/

namespace Sys2Proof.Machine

/-- Busy (10_state.md R26): a command is issued and not completed. -/
def Controller.busy (c : Controller) : Bool := c.inflight.isSome

/-- FLAGS (R32): bit 0 COMPLETE, bit 1 CONFIGURED, the rest 0. -/
def flagsWord (c : Controller) : Word16 :=
  (0 : BitVec 14) ++ BitVec.ofBool c.configured ++ BitVec.ofBool (!c.busy)

/-- The default `STATUS_CODE`, the table of 30_encoding.md R66. -/
def defaultStatusCode : Status → Byte
  | .start => 0x08
  | .repeatedStart => 0x10
  | .mtSlaAck => 0x18
  | .mtSlaNack => 0x20
  | .mtDataAck => 0x28
  | .mtDataNack => 0x30
  | .arbLost => 0x38
  | .mrSlaAck => 0x40
  | .mrSlaNack => 0x48
  | .mrDataAck => 0x50
  | .mrDataNack => 0x58
  | .noInfo => 0xF8

/-- The twelve statuses, in the order of R66's table. -/
def allStatuses : List Status :=
  [.start, .repeatedStart, .mtSlaAck, .mtSlaNack, .mtDataAck, .mtDataNack, .arbLost, .mrSlaAck,
   .mrSlaNack, .mrDataAck, .mrDataNack, .noInfo]

/-- The codes of a table are distinct, as R66 requires of every `STATUS_CODE`. -/
def distinctCodes (codes : Status → Byte) : Bool := decide (allStatuses.map codes).Nodup

/-- `STATUS_CODE` of this machine: the parameter, whatever table with distinct codes it is. A table with
two equal codes is none that R66 allows, and the default stands for it (log entry 4). -/
def statusCode : Status → Byte :=
  if distinctCodes Config.statusCode then Config.statusCode else defaultStatusCode

/-- `statusName` (42_bus_driver.md R95) under a table: the status whose code is the byte, if any. -/
def statusName (codes : Status → Byte) (b : Byte) : Option Status :=
  allStatuses.find? fun st => codes st == b

/-- The session is active (R22): the master owns the bus. -/
def Phase.active : Phase → Bool
  | .idle => false
  | .started => true
  | .addressed => true
  | .transferring => true
  | .stopped => false

/-- `idleEq` (R21). -/
def Phase.idleEq : Phase → Bool
  | .idle => true
  | .started => false
  | .addressed => false
  | .transferring => false
  | .stopped => true

/-- `phase ∈ {Addressed, Transferring}` (R23). -/
def Phase.carriesBytes : Phase → Bool
  | .idle => false
  | .started => false
  | .addressed => true
  | .transferring => true
  | .stopped => false

/-- `startCondition` succeeded: status ∈ {START, REPEATED_START} (R96). -/
def startObtained (st : Status) : Bool := st == .start || st == .repeatedStart

/-- The slave acknowledged its address: status ∈ {MT_SLA_ACK, MR_SLA_ACK} (R97). -/
def addressAcked (st : Status) : Bool := st == .mtSlaAck || st == .mrSlaAck

/-- `writeByte` succeeded: status = MT_DATA_ACK (R99). -/
def dataAcked (st : Status) : Bool := st == .mtDataAck

/-- The status of an address byte that was answered (R88). -/
def addressStatus (dir : Dir) (a : AckDraw) : Status :=
  match dir, a with
  | .write, .ack => .mtSlaAck
  | .read, .ack => .mrSlaAck
  | .write, .nack => .mtSlaNack
  | .read, .nack => .mrSlaNack

end Sys2Proof.Machine
end

