-- ==== Sys2Proof/Machine/Operands.lean ====
section
/-! DEFINITION. Every operand form of the spec: the address byte, the mini-language's digits and literal,
and the three byte sequences of a run (20_memory.md R41, R47 to R49). -/

namespace Sys2Proof.Machine

/-- `dirbit` (30_encoding.md R63). -/
def dirBit : Dir → BitVec 1
  | .write => 0
  | .read => 1

/-- `sla(address, dir) = (address << 1) | dirbit(dir)` (R63). -/
def sla (a : SlaveAddr) (d : Dir) : Byte := a ++ dirBit d

/-- The direction an address byte carries in bit 0 (R64). -/
def slaDir (b : Byte) : Dir := if b.getLsbD 0 then .read else .write

/-- The slave address an address byte carries in bits `[7:1]` (R64). -/
def slaAddr (b : Byte) : SlaveAddr := b.extractLsb' 1 7

/-- The radix as a number (R35). -/
def Radix.base : Radix → Nat
  | .two => 2
  | .ten => 10
  | .sixteen => 16

/-- `DIGIT_VALID` (R69): a digit of value `dv` counts under a radix exactly when it is below it. -/
def digitValid (dv : Nat) (r : Radix) : Bool := decide (dv < r.base)

/-- The byte a literal writes: `acc mod 256` (R106, R38). -/
def literalByte (acc : Nat) : Byte := BitVec.ofNat 8 acc

/-- `MemRead(i, 1)` on the command string (R47). -/
def readCommandByte (x : Interp) (i : Nat) : Option Byte := x.cmdStr[i]?

/-- `writeValues[j]` (R49): none where it faults with OperandUnderflow. -/
def readWriteValue (x : Interp) (j : Nat) : Option Byte := x.writeValues[j]?

/-- `MemWrite(i, 1, v)` on the read slots (R48): none where it faults with OperandUnderflow. -/
def writeReadSlot (x : Interp) (i : Nat) (v : Byte) : Option Interp :=
  if i < x.readTargets.length then some { x with readTargets := x.readTargets.set i v } else none

end Sys2Proof.Machine
end

