-- ==== Sys2Proof/Machine/Ops.lean ====
section
/-! DEFINITION. The named operations over the state that every meaning shares: raising a fault (the
spec's only exception-like event), register access, issue of a command, and the host thread's waits,
returns and token ends. -/

namespace Sys2Proof.Machine

/-! ## Faults (60_exceptions.md R132) -/

/-- `raise Fault(r)`: the first fault is recorded, and nothing else changes. -/
def raise (r : Fault) (s : State) : State :=
  { s with ctl := { s.ctl with fault := some (s.ctl.fault.getD r) } }

/-- A rule that either goes on or raises; what it wrote before the raise is in `s`. -/
def settle (s : State) : Except Fault State → State
  | .ok t => t
  | .error r => raise r s

/-- The outcome of a host action whose effect is `t`: a faulted machine takes no step (R132). -/
def act (s t : State) : Host.Outcome State Fault Refusal :=
  match s.ctl.fault with
  | some r => .fault r
  | none => .next t

/-- The host or the environment has used one step: the free values move on (log entries 1 and 2). -/
def advance (s : State) : State :=
  { s with tick := s.tick + 1, turn := Config.nextTurn s.tick }

/-! ## Register access (20_memory.md R43, R44) -/

/-- `RegRead(off)` (R43) under a `STATUS_CODE`, cases in the spec's order; it changes no state. The two
faults of an unwritten register are R43's own: its cases for off = 2 and off = 3 raise them (also R30, R31,
the fault table R131, decision D17), and the spec gives those two reads no value. -/
def regRead (codes : Status → Byte) (off : Offset) (c : Controller) : Except Fault Word16 :=
  if 5 ≤ off.toNat then .error .unmappedRegister
  else if off = 0 then .ok 0
  else if off = 4 then .ok (flagsWord c)
  else if c.busy && (off == 1 || off == 2) then .error .readWhileBusy
  else if off = 1 then .ok ((codes c.status).setWidth 16)
  else if off = 2 then
    match c.data with
    | none => .error .unwrittenRegister
    | some b => .ok (b.setWidth 16)
  else if c.configured then .ok (brword c.prescalerExponent c.divisor)
  else .error .unwrittenRegister

/-- `write-bitrate(v)` (40_clock_configurator.md R79). -/
def writeBitrate (v : Word16) (s : State) : Except Fault State :=
  if s.ctl.busy then .error .writeWhileBusy
  else if reservedField v ≠ 0 then .error .reservedField
  else .ok { s with ctl := { s.ctl with
    prescalerExponent := prescalerField v, divisor := lowByte v, configured := true } }

/-- A register write that is no instruction: what R44 and R79 raise. -/
def rejectedWrite (e : Reject) (v : Word16) (s : State) : State :=
  match e with
  | .unmappedRegister => raise .unmappedRegister s
  | .readOnlyRegister => raise .readOnlyWrite s
  | .reservedField => settle s (writeBitrate v s)

/-! ## Issuing a command (41_bus_commands.md R81, R82) -/

/-- The command is meaningful in this state (R82). -/
def meaningful (c : Controller) : Command → Bool
  | .start => true
  | .stop => true
  | .send _ =>
    (c.phase == .started && c.addrPending) || (c.phase.carriesBytes && c.direction == some .write)
  | .recvAck => c.phase.carriesBytes && c.direction == some .read
  | .recvNack => c.phase.carriesBytes && c.direction == some .read

/-- The writes of an accepted command (R81): it is in flight, and a SEND's byte is in DATA. -/
def accept (cmd : Command) (c : Controller) : Controller :=
  { c with
    inflight := some cmd
    data := match cmd with
      | .send b => some b
      | .start | .recvAck | .recvNack | .stop => c.data }

/-- `issue-command` after decoding (R81), checks in the spec's order. -/
def issue (cmd : Command) (s : State) : Except Fault State :=
  if s.ctl.configured = false then .error .unconfigured
  else if s.ctl.busy then .error .commandWhileBusy
  else if meaningful s.ctl cmd = false then .error .protocolMisuse
  else .ok { s with ctl := accept cmd s.ctl }

/-! ## The host thread (42_bus_driver.md, 43_command_interpreter.md) -/

/-- A function called by the host program returns a value (70_reset_and_hazards.md R154). -/
def ret (v : ReturnValue) (s : State) : State :=
  { s with control := .ready, returned := some v }

/-- Issue a command and enter `await_complete()` (R94, R95). -/
def issueAndWait (k : Await) (cmd : Command) (s : State) : State :=
  settle s ((issue cmd s).map fun t => { t with control := .polling k })

/-- A token is done: the cursor moves on by one (R104). -/
def nextCharacter (s : State) : State :=
  { s with control := .ready, interp := { s.interp with cursor := s.interp.cursor + 1 } }

/-- The reset of a literal at the end of `flush()` (R106). -/
def clearLiteral (x : Interp) : Interp :=
  { x with radix := .ten, acc := 0, pending := false }

/-- The end of `readInto` (R107): store the byte, then count it. -/
def storeRead (v : Byte) (s : State) : Except Fault State :=
  match writeReadSlot s.interp s.interp.readIdx v with
  | some x =>
    .ok { s with interp := { x with readIdx := x.readIdx + 1, readCount := x.readCount + 1 } }
  | none => .error .operandUnderflow

end Sys2Proof.Machine
end

