-- ==== Sys2Proof/Machine/Clock.lean ====
section
/-! DEFINITION. The Clock Configurator, the bit-rate register write and setup
(40_clock_configurator.md). -/

namespace Sys2Proof.Machine

/-- The divisor the loop of R74 computes at exponent `p`, under either reading of the two divisions
(R75; 93_implementation_defined.md `CLOCK_DIV_READING`). -/
def clockDivisor (reading : ClockDivReading) (base target p : Nat) : Int :=
  match reading with
  | .termwise => (base / (target * 4 ^ p * 2) : Nat) - (8 / 4 ^ p : Nat)
  | .exact => Int.tdiv ((base : Int) - 16 * (target : Int)) (2 * 4 ^ p * (target : Int))

/-- The loop of R74 over the exponents still to try: it stops at the first divisor at most 255 (R76). -/
def clockSearch (reading : ClockDivReading) (base target : Nat) : List (BitVec 2) → ClockResult
  | [] => .unreachableBitrate
  | p :: rest =>
    let d := clockDivisor reading base target p.toNat
    if d ≤ 255 then
      if d < 0 then .unreachableBitrate else .ok p (BitVec.ofNat 8 d.toNat)
    else clockSearch reading base target rest

/-- `computeClockParameters(base, target)` (R74, R77). -/
def computeClockParameters (reading : ClockDivReading) (base target : Nat) : ClockResult :=
  if target = 0 then .unreachableBitrate else clockSearch reading base target [0, 1, 2, 3]

/-- `bitrate(base, p, d)` (R73); timing only, no rule reads it. -/
def bitrate (base : Nat) (p : BitVec 2) (d : Byte) : Nat :=
  base / (16 + 2 * d.toNat * 4 ^ p.toNat)

/-- BITRATE write (R79). -/
def execBitrateWrite (p : BitVec 2) (d : Byte) (s : State) : Host.Outcome State Fault Refusal :=
  act s (settle s (writeBitrate (brword p d) s))

/-- `computeClockParameters` called by the host (R74): pure, it returns its result. -/
def execComputeClockParameters (base target : Nat) (s : State) :
    Host.Outcome State Fault Refusal :=
  act s (ret (.clock (computeClockParameters Config.clockDivReading base target)) s)

/-- `setup` (R80): the parameters are written on success; a failure writes nothing and is returned. -/
def setup (base target : Nat) (s : State) : State :=
  match computeClockParameters Config.clockDivReading base target with
  | .ok p d => settle s ((writeBitrate (brword p d) s).map (ret (.setup true)))
  | .unreachableBitrate => ret (.setup false) s

/-- `setup` called by the host (R80). -/
def execSetup (base target : Nat) (s : State) : Host.Outcome State Fault Refusal :=
  act s (setup base target s)

end Sys2Proof.Machine
end

