-- ==== Sys2Proof/Machine/Commands.lean ====
section
/-! DEFINITION. The five controller commands and the reserved word, as writes to CMD
(41_bus_commands.md). Each meaning is the issue; the completion is the environment's step
(Environment.lean), as in the two-step form that R93 makes normative. -/

namespace Sys2Proof.Machine

/-- START (R85). -/
def execStart (s : State) : Host.Outcome State Fault Refusal :=
  act s (settle s (issue .start s))

/-- SEND(b) (R87). -/
def execSend (b : Byte) (s : State) : Host.Outcome State Fault Refusal :=
  act s (settle s (issue (.send b) s))

/-- RECV_ACK (R89). -/
def execRecvAck (s : State) : Host.Outcome State Fault Refusal :=
  act s (settle s (issue .recvAck s))

/-- RECV_NACK (R90). -/
def execRecvNack (s : State) : Host.Outcome State Fault Refusal :=
  act s (settle s (issue .recvNack s))

/-- STOP (R91). -/
def execStop (s : State) : Host.Outcome State Fault Refusal :=
  act s (settle s (issue .stop s))

/-- A word that spells no command (R61, R81): its effect is Fault(ReservedCommand), whatever the word. -/
def execReservedCommandWord (_w : Word16) (s : State) : Host.Outcome State Fault Refusal :=
  act s (raise .reservedCommand s)

end Sys2Proof.Machine
end

