-- ==== Sys2Proof/Machine/Driver.lean ====
section
/-! DEFINITION. The Bus Driver primitives (42_bus_driver.md). A meaning issues the primitive's first
command and enters `await_complete()`; `poll` is one pass of that loop, and `resume` is what the
primitive does once COMPLETE reads 1. -/

namespace Sys2Proof.Machine

/-! ## Meanings -/

/-- `startCondition()` (R96). -/
def execStartCondition (s : State) : Host.Outcome State Fault Refusal :=
  act s (issueAndWait ⟨.startCondition, .host⟩ .start s)

/-- `addressedStart(a, d)` (R97). -/
def execAddressedStart (a : SlaveAddr) (d : Dir) (s : State) : Host.Outcome State Fault Refusal :=
  act s (issueAndWait ⟨.addressedStart a d, .host⟩ .start s)

/-- `retryingAddressedStart(a, d)` (R98). -/
def execRetryingAddressedStart (a : SlaveAddr) (d : Dir) (s : State) :
    Host.Outcome State Fault Refusal :=
  act s (issueAndWait ⟨.retryStart a d, .host⟩ .start s)

/-- `writeByte(v)` (R99). -/
def execWriteByte (v : Byte) (s : State) : Host.Outcome State Fault Refusal :=
  act s (issueAndWait ⟨.writeByte, .host⟩ (.send v) s)

/-- `readByte(RequestMore)` (R100). -/
def execReadByteRequestMore (s : State) : Host.Outcome State Fault Refusal :=
  act s (issueAndWait ⟨.readByte, .host⟩ .recvAck s)

/-- `readByte(LastByte)` (R101). -/
def execReadByteLastByte (s : State) : Host.Outcome State Fault Refusal :=
  act s (issueAndWait ⟨.readByte, .host⟩ .recvNack s)

/-- `stopCondition()` (R102). -/
def execStopCondition (s : State) : Host.Outcome State Fault Refusal :=
  act s (issueAndWait ⟨.stopCondition, .host⟩ .stop s)

/-! ## The rest of each primitive -/

/-- The primitive returns. The host program gets the value; a token of the interpreter drops it, does
what its own rule says next, and is done. -/
def finish (caller : Caller) (v : ReturnValue) (after : State → Except Fault State) (s : State) :
    State :=
  match caller with
  | .host => ret v s
  | .interpreter => settle s ((after s).map nextCharacter)

/-- What follows a completed wait, by the primitive's own pseudocode (R94, R96 to R102). The status is
the one STATUS shows (R95, log entry 16); the byte is DATA's (R100). -/
def resume (k : Await) (s : State) : State :=
  match k.point with
  | .awaitComplete => finish k.caller .unit .ok s
  | .startCondition => finish k.caller (.bool (startObtained s.ctl.status)) .ok s
  | .addressedStart a d =>
    if startObtained s.ctl.status then
      issueAndWait ⟨.addressedSend, k.caller⟩ (.send (sla a d)) s
    else finish k.caller (.bool false) .ok s
  | .addressedSend => finish k.caller (.bool (addressAcked s.ctl.status)) .ok s
  | .retryStart a d =>
    if startObtained s.ctl.status then
      issueAndWait ⟨.retrySend a d, k.caller⟩ (.send (sla a d)) s
    else issueAndWait ⟨.retryStart a d, k.caller⟩ .start s
  | .retrySend a d =>
    if addressAcked s.ctl.status then finish k.caller .unit .ok s
    else issueAndWait ⟨.retryStop a d, k.caller⟩ .stop s
  | .retryStop a d => issueAndWait ⟨.retryStart a d, k.caller⟩ .start s
  | .writeByte =>
    finish k.caller (.bool (dataAcked s.ctl.status))
      (fun t => .ok { t with interp := clearLiteral t.interp }) s
  | .readByte =>
    match regRead statusCode 2 s.ctl with
    | .ok w => finish k.caller (.byte (lowByte w)) (storeRead (lowByte w)) s
    | .error r => raise r s
  | .stopCondition => finish k.caller .unit .ok s

/-- One pass of `await_complete()` (R94): FLAGS.COMPLETE reads 0 and the loop goes on, or it reads 1
and the primitive goes on. -/
def poll (k : Await) (s : State) : State :=
  if (flagsWord s.ctl).getLsbD 0 then resume k s else s

end Sys2Proof.Machine
end

