-- ==== Sys2Proof/Machine/Tokens.lean ====
section
/-! DEFINITION. The Command Interpreter (43_command_interpreter.md): `run`, the shared actions of its
tokens, and a meaning for every character row of the opcode table. A token that calls a Bus Driver
primitive leaves the cursor where it is until the primitive returns (R104, R127). -/

namespace Sys2Proof.Machine

/-! ## The run -/

/-- `run` (R104): `S` is created afresh and the scan begins. -/
def execRun (cmdStr readTargets writeValues : List Byte) (s : State) :
    Host.Outcome State Fault Refusal :=
  act s { s with
    interp := Interp.initial cmdStr readTargets writeValues, running := true, control := .ready }

/-- `end-of-run()` (R108) and the return of `run` (R104): a pending literal is dropped, and `S` is
discarded but for the caller's read slots (10_state.md R36; 70_reset_and_hazards.md R145). -/
def endOfRun (s : State) : State :=
  if s.interp.readIdx ≠ s.interp.readTargets.length
      ∨ s.interp.writeIdx ≠ s.interp.writeValues.length then raise .operandSurplus s
  else { ret (.readCount s.interp.readCount) s with
    running := false, interp := Interp.outside s.interp.readTargets }

/-! ## Shared token actions -/

/-- A start token (R109): `startCondition()`, its result dropped. -/
def startToken (s : State) : State := issueAndWait ⟨.startCondition, .interpreter⟩ .start s

/-- A stop token (R111): `stopCondition()`. -/
def stopToken (s : State) : State := issueAndWait ⟨.stopCondition, .interpreter⟩ .stop s

/-- A radix token (R113, R114). -/
def radixToken (r : Radix) (s : State) : State :=
  nextCharacter { s with interp := { s.interp with radix := r } }

/-- `readInto(mode)` (R107) up to its bus read: the slot is checked before the command is issued. -/
def readToken (cmd : Command) (s : State) : State :=
  if s.interp.readIdx < s.interp.readTargets.length then
    issueAndWait ⟨.readByte, .interpreter⟩ cmd s
  else raise .operandUnderflow s

/-- `flush()` (R106): with a literal pending, `writeByte` comes first and the reset after it returns. -/
def flushToken (s : State) : State :=
  if s.interp.pending then
    issueAndWait ⟨.writeByte, .interpreter⟩ (.send (literalByte s.interp.acc)) s
  else nextCharacter { s with interp := clearLiteral s.interp }

/-- A write token (R119): the next write value becomes the pending literal, then `flush()`. -/
def writeToken (s : State) : State :=
  match readWriteValue s.interp s.interp.writeIdx with
  | none => raise .operandUnderflow s
  | some v =>
    flushToken { s with interp := { s.interp with
      pending := true, acc := v.toNat, writeIdx := s.interp.writeIdx + 1 } }

/-- The delay token (R123): an event and nothing else. -/
def delayToken (s : State) : State :=
  nextCharacter { s with ctl := { s.ctl with trace := s.ctl.trace ++ [.delay1us] } }

/-- An ignored character (R125): only the cursor moves, by R104. -/
def ignoreToken (s : State) : State := nextCharacter s

/-- A digit character of value `dv` (R124); not valid under the radix, it is ignored (R125). -/
def digitToken (dv : Nat) (s : State) : State :=
  if digitValid dv s.interp.radix then
    nextCharacter { s with interp := { s.interp with
      acc := s.interp.acc * s.interp.radix.base + dv, pending := true } }
  else ignoreToken s

/-! ## Meanings -/

/-- R109: token `{` (0x7B). -/
def execStartBrace (s : State) : Host.Outcome State Fault Refusal := act s (startToken s)

/-- R110: token `[` (0x5B). -/
def execStartBracket (s : State) : Host.Outcome State Fault Refusal := act s (startToken s)

/-- R111: token `}` (0x7D). -/
def execStopBrace (s : State) : Host.Outcome State Fault Refusal := act s (stopToken s)

/-- R112: token `]` (0x5D). -/
def execStopBracket (s : State) : Host.Outcome State Fault Refusal := act s (stopToken s)

/-- R113: token `x` (0x78). -/
def execRadix16 (s : State) : Host.Outcome State Fault Refusal := act s (radixToken .sixteen s)

/-- R114: token `b` (0x62). -/
def execRadix2 (s : State) : Host.Outcome State Fault Refusal := act s (radixToken .two s)

/-- R115: token `r` (0x72). -/
def execReadMoreLower (s : State) : Host.Outcome State Fault Refusal := act s (readToken .recvAck s)

/-- R116: token `R` (0x52). -/
def execReadMoreUpper (s : State) : Host.Outcome State Fault Refusal := act s (readToken .recvAck s)

/-- R117: token `s` (0x73). -/
def execReadLastLower (s : State) : Host.Outcome State Fault Refusal := act s (readToken .recvNack s)

/-- R118: token `S` (0x53). -/
def execReadLastUpper (s : State) : Host.Outcome State Fault Refusal := act s (readToken .recvNack s)

/-- R119: token `w` (0x77). -/
def execWriteNextLower (s : State) : Host.Outcome State Fault Refusal := act s (writeToken s)

/-- R120: token `W` (0x57). -/
def execWriteNextUpper (s : State) : Host.Outcome State Fault Refusal := act s (writeToken s)

/-- R121: token ` ` (0x20). -/
def execDelimitSpace (s : State) : Host.Outcome State Fault Refusal := act s (flushToken s)

/-- R122: token `,` (0x2C). -/
def execDelimitComma (s : State) : Host.Outcome State Fault Refusal := act s (flushToken s)

/-- R123: token `&` (0x26). -/
def execDelay1us (s : State) : Host.Outcome State Fault Refusal := act s (delayToken s)

/-- R124: token `0` (0x30). -/
def execDigit0 (s : State) : Host.Outcome State Fault Refusal := act s (digitToken 0 s)

/-- R124: token `1` (0x31). -/
def execDigit1 (s : State) : Host.Outcome State Fault Refusal := act s (digitToken 1 s)

/-- R124: token `2` (0x32). -/
def execDigit2 (s : State) : Host.Outcome State Fault Refusal := act s (digitToken 2 s)

/-- R124: token `3` (0x33). -/
def execDigit3 (s : State) : Host.Outcome State Fault Refusal := act s (digitToken 3 s)

/-- R124: token `4` (0x34). -/
def execDigit4 (s : State) : Host.Outcome State Fault Refusal := act s (digitToken 4 s)

/-- R124: token `5` (0x35). -/
def execDigit5 (s : State) : Host.Outcome State Fault Refusal := act s (digitToken 5 s)

/-- R124: token `6` (0x36). -/
def execDigit6 (s : State) : Host.Outcome State Fault Refusal := act s (digitToken 6 s)

/-- R124: token `7` (0x37). -/
def execDigit7 (s : State) : Host.Outcome State Fault Refusal := act s (digitToken 7 s)

/-- R124: token `8` (0x38). -/
def execDigit8 (s : State) : Host.Outcome State Fault Refusal := act s (digitToken 8 s)

/-- R124: token `9` (0x39). -/
def execDigit9 (s : State) : Host.Outcome State Fault Refusal := act s (digitToken 9 s)

/-- R124: token `a` (0x61). -/
def execDigitLowerA (s : State) : Host.Outcome State Fault Refusal := act s (digitToken 10 s)

/-- R124: token `c` (0x63). -/
def execDigitLowerC (s : State) : Host.Outcome State Fault Refusal := act s (digitToken 12 s)

/-- R124: token `d` (0x64). -/
def execDigitLowerD (s : State) : Host.Outcome State Fault Refusal := act s (digitToken 13 s)

/-- R124: token `e` (0x65). -/
def execDigitLowerE (s : State) : Host.Outcome State Fault Refusal := act s (digitToken 14 s)

/-- R124: token `f` (0x66). -/
def execDigitLowerF (s : State) : Host.Outcome State Fault Refusal := act s (digitToken 15 s)

/-- R124: token `A` (0x41). -/
def execDigitUpperA (s : State) : Host.Outcome State Fault Refusal := act s (digitToken 10 s)

/-- R124: token `B` (0x42). -/
def execDigitUpperB (s : State) : Host.Outcome State Fault Refusal := act s (digitToken 11 s)

/-- R124: token `C` (0x43). -/
def execDigitUpperC (s : State) : Host.Outcome State Fault Refusal := act s (digitToken 12 s)

/-- R124: token `D` (0x44). -/
def execDigitUpperD (s : State) : Host.Outcome State Fault Refusal := act s (digitToken 13 s)

/-- R124: token `E` (0x45). -/
def execDigitUpperE (s : State) : Host.Outcome State Fault Refusal := act s (digitToken 14 s)

/-- R124: token `F` (0x46). -/
def execDigitUpperF (s : State) : Host.Outcome State Fault Refusal := act s (digitToken 15 s)

/-- R125: a byte no earlier row of R67 matches. -/
def execIgnore (_b : Byte) (s : State) : Host.Outcome State Fault Refusal :=
  act s (ignoreToken s)

end Sys2Proof.Machine
end

