-- ==== Sys2Proof/Machine/Dispatch.lean ====
section
/-! DEFINITION. The one match from an instruction to its meaning. -/

namespace Sys2Proof.Machine

def exec (i : Instr) (s : State) : Host.Outcome State Fault Refusal :=
  match i with
  | .start => Sys2Proof.Machine.execStart s
  | .send b => Sys2Proof.Machine.execSend b s
  | .recvAck => Sys2Proof.Machine.execRecvAck s
  | .recvNack => Sys2Proof.Machine.execRecvNack s
  | .stop => Sys2Proof.Machine.execStop s
  | .reservedCommandWord w => Sys2Proof.Machine.execReservedCommandWord w s
  | .bitrateWrite p d => Sys2Proof.Machine.execBitrateWrite p d s
  | .startCondition => Sys2Proof.Machine.execStartCondition s
  | .addressedStart a d => Sys2Proof.Machine.execAddressedStart a d s
  | .retryingAddressedStart a d => Sys2Proof.Machine.execRetryingAddressedStart a d s
  | .writeByte v => Sys2Proof.Machine.execWriteByte v s
  | .readByteRequestMore => Sys2Proof.Machine.execReadByteRequestMore s
  | .readByteLastByte => Sys2Proof.Machine.execReadByteLastByte s
  | .stopCondition => Sys2Proof.Machine.execStopCondition s
  | .computeClockParameters base target => Sys2Proof.Machine.execComputeClockParameters base target s
  | .setup base target => Sys2Proof.Machine.execSetup base target s
  | .run cmdStr readTargets writeValues => Sys2Proof.Machine.execRun cmdStr readTargets writeValues s
  | .startBrace => Sys2Proof.Machine.execStartBrace s
  | .startBracket => Sys2Proof.Machine.execStartBracket s
  | .stopBrace => Sys2Proof.Machine.execStopBrace s
  | .stopBracket => Sys2Proof.Machine.execStopBracket s
  | .radix16 => Sys2Proof.Machine.execRadix16 s
  | .radix2 => Sys2Proof.Machine.execRadix2 s
  | .readMoreLower => Sys2Proof.Machine.execReadMoreLower s
  | .readMoreUpper => Sys2Proof.Machine.execReadMoreUpper s
  | .readLastLower => Sys2Proof.Machine.execReadLastLower s
  | .readLastUpper => Sys2Proof.Machine.execReadLastUpper s
  | .writeNextLower => Sys2Proof.Machine.execWriteNextLower s
  | .writeNextUpper => Sys2Proof.Machine.execWriteNextUpper s
  | .delimitSpace => Sys2Proof.Machine.execDelimitSpace s
  | .delimitComma => Sys2Proof.Machine.execDelimitComma s
  | .delay1us => Sys2Proof.Machine.execDelay1us s
  | .digit0 => Sys2Proof.Machine.execDigit0 s
  | .digit1 => Sys2Proof.Machine.execDigit1 s
  | .digit2 => Sys2Proof.Machine.execDigit2 s
  | .digit3 => Sys2Proof.Machine.execDigit3 s
  | .digit4 => Sys2Proof.Machine.execDigit4 s
  | .digit5 => Sys2Proof.Machine.execDigit5 s
  | .digit6 => Sys2Proof.Machine.execDigit6 s
  | .digit7 => Sys2Proof.Machine.execDigit7 s
  | .digit8 => Sys2Proof.Machine.execDigit8 s
  | .digit9 => Sys2Proof.Machine.execDigit9 s
  | .digitLowerA => Sys2Proof.Machine.execDigitLowerA s
  | .digitLowerC => Sys2Proof.Machine.execDigitLowerC s
  | .digitLowerD => Sys2Proof.Machine.execDigitLowerD s
  | .digitLowerE => Sys2Proof.Machine.execDigitLowerE s
  | .digitLowerF => Sys2Proof.Machine.execDigitLowerF s
  | .digitUpperA => Sys2Proof.Machine.execDigitUpperA s
  | .digitUpperB => Sys2Proof.Machine.execDigitUpperB s
  | .digitUpperC => Sys2Proof.Machine.execDigitUpperC s
  | .digitUpperD => Sys2Proof.Machine.execDigitUpperD s
  | .digitUpperE => Sys2Proof.Machine.execDigitUpperE s
  | .digitUpperF => Sys2Proof.Machine.execDigitUpperF s
  | .ignore b => Sys2Proof.Machine.execIgnore b s

end Sys2Proof.Machine
end

