-- ==== Sys2Proof/Machine/Environment.lean ====
section
/-! DEFINITION. The bus environment's step: completion of the command in flight
(41_bus_commands.md R83, R84, R86, R88 to R91). Each rule takes its draw as an argument; `step` supplies
it from `Config.draw`. -/

namespace Sys2Proof.Machine

/-- R86. -/
def completeStart (o : StartDraw) (c : Controller) : Controller :=
  match o with
  | .owned =>
    let st : Status := if c.phase.active then .repeatedStart else .start
    { c with
      status := st, phase := .started, addrPending := true, direction := none
      trace := c.trace ++ [.start st] }
  | .arbLost =>
    { c with
      status := .arbLost, phase := .idle, addrPending := false, direction := none
      trace := c.trace ++ [.start .arbLost] }

/-- R88, the address byte. -/
def completeAddress (b : Byte) (a : AckDraw) (c : Controller) : Controller :=
  let st := addressStatus (slaDir b) a
  match a with
  | .ack =>
    { c with
      addrPending := false, status := st, phase := .addressed, direction := some (slaDir b)
      trace := c.trace ++ [.send b st] }
  | .nack =>
    { c with
      addrPending := false, status := st, direction := none
      trace := c.trace ++ [.send b st] }

/-- R88, a data byte. -/
def completeData (b : Byte) (a : AckDraw) (c : Controller) : Controller :=
  let st : Status := match a with
    | .ack => .mtDataAck
    | .nack => .mtDataNack
  { c with status := st, phase := .transferring, trace := c.trace ++ [.send b st] }

/-- R88. -/
def completeSend (b : Byte) (a : AckDraw) (c : Controller) : Controller :=
  if c.addrPending then completeAddress b a c else completeData b a c

/-- R89. -/
def completeRecvAck (v : Byte) (c : Controller) : Controller :=
  { c with
    data := some v, status := .mrDataAck, phase := .transferring
    trace := c.trace ++ [.recv .requestMore v .mrDataAck] }

/-- R90. -/
def completeRecvNack (v : Byte) (c : Controller) : Controller :=
  { c with
    data := some v, status := .mrDataNack, phase := .transferring
    trace := c.trace ++ [.recv .lastByte v .mrDataNack] }

/-- R91. -/
def completeStop (c : Controller) : Controller :=
  { c with
    phase := .stopped, addrPending := false, direction := none, status := .noInfo
    trace := c.trace ++ [.stop] }

/-- The completion rule of each command, with the part of the draw it needs (R83). -/
def completionRule (cmd : Command) (d : Draw) (c : Controller) : Controller :=
  match cmd with
  | .start => completeStart d.start c
  | .send b => completeSend b d.ack c
  | .recvAck => completeRecvAck d.byte c
  | .recvNack => completeRecvNack d.byte c
  | .stop => completeStop c

/-- `complete(draw)` (R83): the rule, then nothing is in flight. -/
def complete (cmd : Command) (d : Draw) (s : State) : State :=
  { s with ctl := { completionRule cmd d s.ctl with inflight := none } }

end Sys2Proof.Machine
end

