-- ==== Sys2Proof/Machine/Fetch.lean ====
section
/-! DEFINITION. What the host thread does next: the next character of a run, or the next action of the
host program (00_scope.md R9; 43_command_interpreter.md R104). The controller executes no code (R144),
so this is the only fetch there is. -/

namespace Sys2Proof.Machine

/-- The host's next move: an instruction of the opcode table with the state it runs in, or a move that
is no instruction (a register read, a wait, a rejected write, the end of a run, nothing to do). -/
inductive Fetched where
  | instr (i : Instr) (s : State)
  | other (s : State)
  deriving DecidableEq, Repr

/-- An action taken off the host program: a register write is decoded (R44), a read returns its word
(R43), the wait is R94, a call names its row. -/
def perform : Action → State → Fetched
  | .regWrite off v, s =>
    match decode (.write off v) with
    | .ok i => .instr i s
    | .error e => .other (rejectedWrite e v s)
  | .regRead off, s =>
    match regRead statusCode off s.ctl with
    | .ok v => .other (ret (.word v) s)
    | .error r => .other (raise r s)
  | .awaitComplete, s => .other { s with control := .polling ⟨.awaitComplete, .host⟩ }
  | .call f, s => .instr (decodeCall f) s

/-- The next move of a host that is ready. During a run it is the character at the cursor, or the end
of the run (R104); otherwise the next action, or waiting, when there is none (R144, log entry 8). -/
def fetch (s : State) : Fetched :=
  if s.running then
    match readCommandByte s.interp s.interp.cursor with
    | some ch => .instr (decodeToken ch) s
    | none => .other (endOfRun s)
  else
    match s.program with
    | [] => .other s
    | a :: rest => perform a { s with program := rest }

/-- The record `S` of a run whose next character is `b`: a run in progress goes on with it, and a run
that starts makes the record afresh (R104, R145) with the slots the caller owns. -/
def presentedScan (b : Byte) (s : State) : Interp :=
  if s.running then { s.interp with cmdStr := [b], cursor := 0 }
  else Interp.initial [b] s.interp.readTargets []

/-- The host given `p` as its very next move (log entry 8): a register write or a call at the head of
its program, outside any run, or the one character `b` of a run. -/
def present (p : Presentation) (s : State) : State :=
  match p with
  | .write off v =>
    { s with control := .ready, running := false, turn := .host,
             interp := Interp.outside s.interp.readTargets,
             program := .regWrite off v :: s.program }
  | .call f =>
    { s with control := .ready, running := false, turn := .host,
             interp := Interp.outside s.interp.readTargets,
             program := .call f :: s.program }
  | .character b =>
    { s with control := .ready, running := true, turn := .host, interp := presentedScan b s }

end Sys2Proof.Machine
end

