-- ==== Sys2Proof/Machine/Step.lean ====
section
/-! DEFINITION. One step of the machine: of the environment, or of the host. -/

namespace Sys2Proof.Machine

/-- One step of the host thread: a pass of `await_complete()` (R94), or its next move. -/
def hostStep (s : State) : Host.Outcome State Fault Refusal :=
  match s.control with
  | .polling k => .next (poll k s)
  | .ready =>
    match fetch s with
    | .instr i t => exec i t
    | .other t => .next t

/-- One step. A faulted machine takes none (R132). With a command in flight and the turn the
environment's, the environment completes it with the draw of this step (R83); otherwise the host moves
(R136). Either way the free values move on. -/
def step (s : State) : Host.Outcome State Fault Refusal :=
  match s.ctl.fault with
  | some r => .fault r
  | none =>
    match s.ctl.inflight, s.turn with
    | some cmd, .environment => .next (complete cmd (Config.draw s.tick) (advance s))
    | some _, .host => hostStep (advance s)
    | none, _ => hostStep (advance s)

/-- The state whose next step fetches and runs the instruction that `decodeTableWord` reads from `w`. -/
def State.withFetchWord (s : State) (nbits w : Nat) : State :=
  match decodeTableWord nbits w with
  | some i => present (encode i) s
  | none => s

end Sys2Proof.Machine
end

