-- ==== Sys2Proof/Safety.lean ====
section
/-! DEFINITION. The words that statements use: when a command can be issued, what an answered command
does to the host that waits for it, the invariants of the machine, the end of a run, and the named
premise of termination claims. -/

namespace Sys2Proof.Machine

/-- Every condition of R81 and R82 under which a command is accepted, in a machine with no fault. -/
abbrev CanIssue (cmd : Command) (s : State) : Prop :=
  s.ctl.fault = none ∧ s.ctl.configured = true ∧ s.ctl.inflight = none ∧ meaningful s.ctl cmd = true

/-- The host's thread is free to make its next move, and the move is the host's (R136). -/
abbrev HostMoves (s : State) : Prop :=
  s.ctl.fault = none ∧ s.control = .ready ∧ (s.ctl.inflight = none ∨ s.turn = .host)

/-- The command in flight is completed with a draw, and a host that waits for it takes its next pass of
`await_complete()`: the fused form of R93, for a host that polls. -/
def serve (d : Draw) (s : State) : State :=
  match s.ctl.inflight, s.control with
  | some cmd, .polling k => poll k (complete cmd d s)
  | some cmd, .ready => complete cmd d s
  | none, _ => s

/-- Several commands answered in turn. -/
def serveAll : List Draw → State → State
  | [], s => s
  | d :: ds, s => serveAll ds (serve d s)

/-! ## Frames -/

/-- Everything a command or a primitive leaves alone outside the controller: the interpreter's record,
the run, the host program, and the pace of the free values. -/
abbrev HostKept (s u : State) : Prop :=
  u.interp = s.interp ∧ u.running = s.running ∧ u.program = s.program ∧ u.turn = s.turn
  ∧ u.tick = s.tick

/-- What no completion writes (R84): the bit-rate fields, `configured` and the fault. -/
abbrev RatesKept (c c' : Controller) : Prop :=
  c'.configured = c.configured ∧ c'.prescalerExponent = c.prescalerExponent
  ∧ c'.divisor = c.divisor ∧ c'.fault = c.fault

/-- The session as R92's table reads it: phase, `addrPending`, direction and status. -/
abbrev SessionIs (c : Controller) (p : Phase) (pend : Bool) (dir : Option Dir) (st : Status) : Prop :=
  c.phase = p ∧ c.addrPending = pend ∧ c.direction = dir ∧ c.status = st

/-! ## Invariants -/

/-- The command in flight was accepted and is still meaningful, and a SEND's byte is in DATA. -/
def inflightOk (c : Controller) : Bool :=
  match c.inflight with
  | none => true
  | some (.send b) => c.configured && meaningful c (.send b) && c.data == some b
  | some .start => c.configured
  | some .stop => c.configured
  | some .recvAck => c.configured && meaningful c .recvAck
  | some .recvNack => c.configured && meaningful c .recvNack

/-- The session invariants of R24 and R25, with what holds of a command in flight. -/
abbrev SessionInv (c : Controller) : Prop :=
  (c.phase.carriesBytes = true → c.direction ≠ none)
  ∧ (c.addrPending = true → c.phase = .started)
  ∧ (c.phase.carriesBytes = false → c.direction = none)
  ∧ inflightOk c = true

/-- The interpreter's indices: as many reads as slots used, and no index past its sequence (R126, R47
to R49). -/
abbrev InterpInv (x : Interp) : Prop :=
  x.readCount = x.readIdx
  ∧ x.readIdx ≤ x.readTargets.length
  ∧ x.writeIdx ≤ x.writeValues.length
  ∧ x.cursor ≤ x.cmdStr.length

/-- Outside a run there is no `S`: only the caller's read slots are left of it (R36, R145). -/
abbrev ScanDiscarded (s : State) : Prop :=
  s.running = false → s.interp = Interp.outside s.interp.readTargets

/-- What a wait in progress relies on: its own command is in flight, or has completed and left what the
primitive reads next. -/
def pointOk (p : Point) (c : Controller) : Bool :=
  match p with
  | .awaitComplete => true
  | .startCondition => c.configured && (c.inflight == none || c.inflight == some .start)
  | .addressedStart _ _ =>
    c.configured && (c.inflight == some .start
      || (c.inflight == none && (!startObtained c.status || (c.phase == .started && c.addrPending))))
  | .retryStart _ _ =>
    c.configured && (c.inflight == some .start
      || (c.inflight == none && (!startObtained c.status || (c.phase == .started && c.addrPending))))
  | .addressedSend => c.configured
  | .retrySend _ _ => c.configured
  | .retryStop _ _ => c.configured
  | .writeByte => c.configured
  | .readByte =>
    c.inflight == some .recvAck || c.inflight == some .recvNack
      || (c.inflight == none && c.data.isSome)
  | .stopCondition => c.configured

/-- What a wait relies on from its caller: only a token's four primitives are called by the interpreter,
during a run, at a character that is there, and a read has its slot. -/
def callerOk (k : Await) (s : State) : Bool :=
  match k.caller with
  | .host => true
  | .interpreter =>
    s.running && decide (s.interp.cursor < s.interp.cmdStr.length)
      && match k.point with
        | .startCondition => true
        | .writeByte => true
        | .stopCondition => true
        | .readByte => decide (s.interp.readIdx < s.interp.readTargets.length)
        | .awaitComplete => false
        | .addressedStart _ _ => false
        | .addressedSend => false
        | .retryStart _ _ => false
        | .retrySend _ _ => false
        | .retryStop _ _ => false

/-- What holds of the host's thread. -/
def hostOk (s : State) : Bool :=
  match s.control with
  | .ready => true
  | .polling k => pointOk k.point s.ctl && callerOk k s

/-- The invariant of the whole machine. -/
abbrev Inv (s : State) : Prop :=
  SessionInv s.ctl ∧ InterpInv s.interp ∧ ScanDiscarded s ∧ hostOk s = true

/-! ## The trace of a retry -/

/-- The status of a START that obtains the bus (41_bus_commands.md R86). -/
def startStatus (p : Phase) : Status :=
  match p with
  | .started | .addressed | .transferring => .repeatedStart
  | .idle | .stopped => .start

/-- The events of one round of `retryingAddressedStart` that is not acknowledged (R98). -/
def retryRound (st : Status) (a : SlaveAddr) (d : Dir) : List Event :=
  [.start st, .send (sla a d) (addressStatus d .nack), .stop]

/-- The events of `n` such rounds: each one after the first starts from a stopped session. -/
def retryRounds (first : Status) (a : SlaveAddr) (d : Dir) : Nat → List Event
  | 0 => []
  | n + 1 => retryRound first a d ++ retryRounds .start a d n

/-! ## Ends and premises -/

/-- The end of a run of the host program (70_reset_and_hazards.md R154). -/
abbrev AtEnd (s : State) : Prop :=
  s.control = .ready ∧ s.running = false ∧ s.program = []
  ∧ s.ctl.inflight = none ∧ s.ctl.fault = none

/-- The premise `ENV_COMPLETES` (00_scope.md R11, R152): the environment gets the turn again and again.
It is named for claims about termination, and no rule of the model rests on it. -/
def EnvCompletes : Prop := ∀ n : Nat, ∃ m : Nat, n ≤ m ∧ Config.nextTurn m = .environment

/-- The digit rows of the opcode table with their values (30_encoding.md R69). -/
def digitRows : List (Instr × Nat) :=
  [(.digit0, 0), (.digit1, 1), (.digit2, 2), (.digit3, 3), (.digit4, 4), (.digit5, 5), (.digit6, 6),
   (.digit7, 7), (.digit8, 8), (.digit9, 9), (.digitLowerA, 10), (.digitLowerC, 12),
   (.digitLowerD, 13), (.digitLowerE, 14), (.digitLowerF, 15), (.digitUpperA, 10),
   (.digitUpperB, 11), (.digitUpperC, 12), (.digitUpperD, 13), (.digitUpperE, 14),
   (.digitUpperF, 15)]

end Sys2Proof.Machine
end

