-- ==== Sys2Proof/Certificates/Slice0/Obligations.lean ====
section
/-! DEFINITION. The statements for the provers, from the numbered rules of spec/. `expect` and `cites`
stand in OBLIGATIONS.json. -/

open Sys2Proof Sys2Proof.Machine

/-! ## Reset -/

/-- R143, with the register values that follow from it under every `STATUS_CODE`. -/
def Obligations.ResetLeavesTheSpecifiedState : Prop :=
  SessionIs State.reset.ctl .idle false none .noInfo
  ∧ State.reset.ctl.inflight = none ∧ State.reset.ctl.data = none
  ∧ State.reset.ctl.configured = false
  ∧ State.reset.ctl.prescalerExponent = prescalerField Config.bitrateReset
  ∧ State.reset.ctl.divisor = lowByte Config.bitrateReset
  ∧ State.reset.ctl.fault = none ∧ State.reset.ctl.trace = []
  ∧ defaultStatusCode .noInfo = 0xF8
  ∧ ∀ codes : Status → Byte,
    regRead codes 0 State.reset.ctl = .ok 0
    ∧ regRead codes 1 State.reset.ctl = .ok ((codes .noInfo).setWidth 16)
    ∧ regRead codes 2 State.reset.ctl = .error .unwrittenRegister
    ∧ regRead codes 3 State.reset.ctl = .error .unwrittenRegister
    ∧ regRead codes 4 State.reset.ctl = .ok 0x0001

/-- The invariants that every step keeps hold at reset. -/
def Obligations.ResetMeetsEveryInvariant : Prop := Inv State.reset

/-- R144, as the model puts it (log entry 8): with no access pending, a step waits. -/
def Obligations.MachineWaitsForTheFirstAccess : Prop :=
  step State.reset = .next (advance State.reset)

/-! ## Registers -/

/-- R43: every case of `RegRead` under every `STATUS_CODE`, and that a read changes no state but the host's returned value. -/
def Obligations.RegisterReadCases : Prop :=
  (∀ (codes : Status → Byte) (c : Controller) (off : Offset),
    (5 ≤ off.toNat → regRead codes off c = .error .unmappedRegister)
    ∧ (off = 0 → regRead codes off c = .ok 0)
    ∧ (off = 4 → regRead codes off c =
        .ok ((0 : BitVec 14) ++ BitVec.ofBool c.configured ++ BitVec.ofBool (decide (c.inflight = none))))
    ∧ (off = 1 ∨ off = 2 → c.inflight ≠ none → regRead codes off c = .error .readWhileBusy)
    ∧ (off = 1 → c.inflight = none → regRead codes off c = .ok ((codes c.status).setWidth 16))
    ∧ (off = 2 → c.inflight = none → c.data = none → regRead codes off c = .error .unwrittenRegister)
    ∧ (∀ b, off = 2 → c.inflight = none → c.data = some b → regRead codes off c = .ok (b.setWidth 16))
    ∧ (off = 3 → c.configured = false → regRead codes off c = .error .unwrittenRegister)
    ∧ (off = 3 → c.configured = true →
        regRead codes off c = .ok ((0 : BitVec 6) ++ c.prescalerExponent ++ c.divisor)))
  ∧ ∀ (s : State) (off : Offset) (rest : List Action),
      HostMoves s → s.running = false → s.program = .regRead off :: rest →
      (∀ v, regRead statusCode off s.ctl = .ok v →
        step s = .next { advance s with program := rest, returned := some (.word v) })
      ∧ (∀ r, regRead statusCode off s.ctl = .error r →
        step s = .next (raise r { advance s with program := rest }))

/-- R44: every case of `RegWrite`, as the host's next move. -/
def Obligations.RegisterWriteCases : Prop :=
  ∀ (s : State) (off : Offset) (v : Word16) (rest : List Action),
    HostMoves s → s.running = false → s.program = .regWrite off v :: rest →
    (5 ≤ off.toNat → step s = .next (raise .unmappedRegister { advance s with program := rest }))
    ∧ (off = 1 ∨ off = 2 ∨ off = 4 →
        step s = .next (raise .readOnlyWrite { advance s with program := rest }))
    ∧ (off = 0 → step s = exec (decodeCommand v) { advance s with program := rest })
    ∧ (off = 3 → step s = .next (settle { advance s with program := rest }
        (writeBitrate v { advance s with program := rest })))

/-- R65: the fields of a bit-rate word, and the fault of a reserved bit. -/
def Obligations.BitrateWordLayout : Prop :=
  (∀ (p : BitVec 2) (d : Byte),
    (brword p d).toNat = p.toNat * 256 + d.toNat ∧ prescalerField (brword p d) = p
    ∧ lowByte (brword p d) = d ∧ reservedField (brword p d) = 0)
  ∧ ∀ (v : Word16) (s : State), s.ctl.inflight = none → v.extractLsb' 10 6 ≠ 0 →
      writeBitrate v s = .error .reservedField

/-- R79: the checks in order, the three fields written, and nothing else. -/
def Obligations.BitrateWriteEffect : Prop :=
  (∀ (v : Word16) (s : State), s.ctl.inflight ≠ none → writeBitrate v s = .error .writeWhileBusy)
  ∧ (∀ (v : Word16) (s : State), s.ctl.inflight = none → v.extractLsb' 10 6 ≠ 0 →
      writeBitrate v s = .error .reservedField)
  ∧ (∀ (v : Word16) (s : State), s.ctl.inflight = none → v.extractLsb' 10 6 = 0 →
      writeBitrate v s = .ok { s with ctl := { s.ctl with
        prescalerExponent := v.extractLsb' 8 2, divisor := v.extractLsb' 0 8, configured := true } })
  ∧ ∀ (p : BitVec 2) (d : Byte) (s : State), s.ctl.fault = none → s.ctl.inflight = none →
      exec (.bitrateWrite p d) s = .next { s with ctl := { s.ctl with
        prescalerExponent := p, divisor := d, configured := true } }

/-! ## Encodings -/

/-- R61: which words spell a command, and what every other word does when it is written. -/
def Obligations.CommandWordDecoding : Prop :=
  (∀ w : Word16,
    (w &&& 0xFFFF = 0x0100 → decodeCommand w = .start)
    ∧ (w &&& 0xFF00 = 0x0200 → decodeCommand w = .send (w.extractLsb' 0 8))
    ∧ (w &&& 0xFFFF = 0x0300 → decodeCommand w = .recvAck)
    ∧ (w &&& 0xFFFF = 0x0400 → decodeCommand w = .recvNack)
    ∧ (w &&& 0xFFFF = 0x0500 → decodeCommand w = .stop)
    ∧ (w.extractLsb' 11 5 ≠ 0 → decodeCommand w = .reservedCommandWord w)
    ∧ (w.extractLsb' 8 3 = 0 ∨ w.extractLsb' 8 3 = 6 ∨ w.extractLsb' 8 3 = 7 →
        decodeCommand w = .reservedCommandWord w)
    ∧ (w.extractLsb' 8 3 ≠ 2 → w.extractLsb' 0 8 ≠ 0 → decodeCommand w = .reservedCommandWord w))
  ∧ ∀ (w : Word16) (s : State), s.ctl.fault = none →
      exec (.reservedCommandWord w) s = .next { s with ctl := { s.ctl with
        fault := some .reservedCommand } }

/-- R62: the five command words, and that decoding inverts encoding on commands. -/
def Obligations.CommandWordEncoding : Prop :=
  encode .start = .write 0 0x0100 ∧ decode (encode .start) = .ok .start
  ∧ (∀ b : Byte, encode (.send b) = .write 0 (0x0200 ||| b.setWidth 16)
      ∧ decode (encode (.send b)) = .ok (.send b))
  ∧ encode .recvAck = .write 0 0x0300 ∧ decode (encode .recvAck) = .ok .recvAck
  ∧ encode .recvNack = .write 0 0x0400 ∧ decode (encode .recvNack) = .ok .recvNack
  ∧ encode .stop = .write 0 0x0500 ∧ decode (encode .stop) = .ok .stop

/-- Every well-formed instruction is what its presentation decodes to. -/
def Obligations.DecodeOfEncodeIsTheInstruction : Prop :=
  ∀ i : Instr, i.WellFormed → decode (encode i) = .ok i

/-- Every presentation that decodes is the encoding of the well-formed instruction it decodes to. -/
def Obligations.EncodeOfDecodeIsThePresentation : Prop :=
  ∀ (p : Presentation) (i : Instr), decode p = .ok i → i.WellFormed ∧ encode i = p

/-- A sanity check of the decoder on words written out from the spec (95_test_vectors.md V-ENC, R67). -/
def Obligations.SampleWordsDecode : Prop :=
  decode (.write 0 0x0100) = .ok .start ∧ decode (.write 0 0x02FF) = .ok (.send 0xFF)
  ∧ decode (.write 0 0x0480) = .ok (.reservedCommandWord 0x0480)
  ∧ decode (.write 3 0x0264) = .ok (.bitrateWrite 2 100)
  ∧ decode (.character 0x5B) = .ok .startBracket ∧ decode (.character 0x62) = .ok .radix2
  ∧ decode (.character 0x42) = .ok .digitUpperB ∧ decode (.character 0x58) = .ok (.ignore 0x58)

/-- R63: the address byte. -/
def Obligations.AddressByteLayout : Prop :=
  (∀ a : SlaveAddr, (sla a .write).toNat = 2 * a.toNat ∧ (sla a .read).toNat = 2 * a.toNat + 1)
  ∧ (∀ (a : SlaveAddr) (d : Dir), (sla a d).extractLsb' 1 7 = a
      ∧ (sla a d).getLsbD 0 = (match d with
          | .write => false
          | .read => true))

/-- STATUS read back names the status under every `STATUS_CODE` with distinct codes (R66, R95); the default
table is one, this machine's table is one, and it is the parameter whenever the parameter is one (R11). -/
def Obligations.StatusCodesNameTheirStatus : Prop :=
  (∀ codes : Status → Byte, (∀ a b, codes a = codes b → a = b) →
    ∀ st, statusName codes (codes st) = some st)
  ∧ (∀ a b, defaultStatusCode a = defaultStatusCode b → a = b)
  ∧ (∀ a b, statusCode a = statusCode b → a = b)
  ∧ ((∀ a b, Config.statusCode a = Config.statusCode b → a = b) → statusCode = Config.statusCode)

/-! ## Issuing commands -/

/-- R81: what a write of any word to CMD does, its checks in order. -/
def Obligations.IssueCommandWord : Prop :=
  ∀ (w : Word16) (s : State), s.ctl.fault = none →
    (isCommandWord w = false → exec (decodeCommand w) s = .next (raise .reservedCommand s))
    ∧ ∀ cmd, (decodeCommand w, cmd) ∈ [(.start, Command.start), (.send (w.extractLsb' 0 8),
          .send (w.extractLsb' 0 8)), (.recvAck, .recvAck), (.recvNack, .recvNack), (.stop, .stop)] →
        (s.ctl.configured = false → exec (decodeCommand w) s = .next (raise .unconfigured s))
        ∧ (s.ctl.configured = true → s.ctl.inflight ≠ none →
            exec (decodeCommand w) s = .next (raise .commandWhileBusy s))
        ∧ (s.ctl.configured = true → s.ctl.inflight = none → meaningful s.ctl cmd = false →
            exec (decodeCommand w) s = .next (raise .protocolMisuse s))
        ∧ (CanIssue cmd s → exec (decodeCommand w) s = .next { s with ctl := { s.ctl with
            data := (match cmd with
              | .send b => some b
              | .start | .recvAck | .recvNack | .stop => s.ctl.data),
            inflight := some cmd } })

/-- R82: when each command is meaningful, and that the check raises exactly when it is not. -/
def Obligations.MeaningfulCommands : Prop :=
  (∀ c : Controller,
    meaningful c .start = true ∧ meaningful c .stop = true
    ∧ (∀ b, meaningful c (.send b) = true ↔
        (c.phase = .started ∧ c.addrPending = true)
        ∨ ((c.phase = .addressed ∨ c.phase = .transferring) ∧ c.direction = some .write))
    ∧ (meaningful c .recvAck = true ↔
        (c.phase = .addressed ∨ c.phase = .transferring) ∧ c.direction = some .read)
    ∧ (meaningful c .recvNack = true ↔
        (c.phase = .addressed ∨ c.phase = .transferring) ∧ c.direction = some .read))
  ∧ ∀ (cmd : Command) (s : State), s.ctl.configured = true → s.ctl.inflight = none →
      (issue cmd s = .error .protocolMisuse ↔ meaningful s.ctl cmd = false)

/-- Each command, accepted, is in flight and nothing else has changed but a SEND's DATA. -/
def Obligations.CommandsAreIssued : Prop :=
  (∀ s : State, s.ctl.fault = none → s.ctl.configured = true → s.ctl.inflight = none →
    exec .start s = .next { s with ctl := { s.ctl with inflight := some .start } }
    ∧ exec .stop s = .next { s with ctl := { s.ctl with inflight := some .stop } })
  ∧ (∀ (b : Byte) (s : State), CanIssue (.send b) s →
      exec (.send b) s = .next { s with ctl := { s.ctl with
        data := some b, inflight := some (.send b) } })
  ∧ (∀ s : State, CanIssue .recvAck s →
      exec .recvAck s = .next { s with ctl := { s.ctl with inflight := some .recvAck } })
  ∧ (∀ s : State, CanIssue .recvNack s →
      exec .recvNack s = .next { s with ctl := { s.ctl with inflight := some .recvNack } })

/-! ## Completion -/

/-- R86: completion of START. -/
def Obligations.StartCompletion : Prop :=
  ∀ (d : Draw) (s : State),
    (d.start = .owned → (s.ctl.phase = .idle ∨ s.ctl.phase = .stopped) →
      complete .start d s = { s with ctl := { s.ctl with
        inflight := none, status := .start, phase := .started, addrPending := true,
        direction := none, trace := s.ctl.trace ++ [.start .start] } })
    ∧ (d.start = .owned →
        (s.ctl.phase = .started ∨ s.ctl.phase = .addressed ∨ s.ctl.phase = .transferring) →
        complete .start d s = { s with ctl := { s.ctl with
          inflight := none, status := .repeatedStart, phase := .started, addrPending := true,
          direction := none, trace := s.ctl.trace ++ [.start .repeatedStart] } })
    ∧ (d.start = .arbLost → complete .start d s = { s with ctl := { s.ctl with
          inflight := none, status := .arbLost, phase := .idle, addrPending := false,
          direction := none, trace := s.ctl.trace ++ [.start .arbLost] } })

/-- R88: completion of SEND, as an address byte and as a data byte. -/
def Obligations.SendCompletion : Prop :=
  ∀ (b : Byte) (d : Draw) (s : State),
    (s.ctl.addrPending = true → d.ack = .ack → b.getLsbD 0 = false →
      complete (.send b) d s = { s with ctl := { s.ctl with
        inflight := none, addrPending := false, status := .mtSlaAck, phase := .addressed,
        direction := some .write, trace := s.ctl.trace ++ [.send b .mtSlaAck] } })
    ∧ (s.ctl.addrPending = true → d.ack = .ack → b.getLsbD 0 = true →
      complete (.send b) d s = { s with ctl := { s.ctl with
        inflight := none, addrPending := false, status := .mrSlaAck, phase := .addressed,
        direction := some .read, trace := s.ctl.trace ++ [.send b .mrSlaAck] } })
    ∧ (s.ctl.addrPending = true → d.ack = .nack → b.getLsbD 0 = false →
      complete (.send b) d s = { s with ctl := { s.ctl with
        inflight := none, addrPending := false, status := .mtSlaNack, direction := none,
        trace := s.ctl.trace ++ [.send b .mtSlaNack] } })
    ∧ (s.ctl.addrPending = true → d.ack = .nack → b.getLsbD 0 = true →
      complete (.send b) d s = { s with ctl := { s.ctl with
        inflight := none, addrPending := false, status := .mrSlaNack, direction := none,
        trace := s.ctl.trace ++ [.send b .mrSlaNack] } })
    ∧ (s.ctl.addrPending = false → d.ack = .ack →
      complete (.send b) d s = { s with ctl := { s.ctl with
        inflight := none, status := .mtDataAck, phase := .transferring,
        trace := s.ctl.trace ++ [.send b .mtDataAck] } })
    ∧ (s.ctl.addrPending = false → d.ack = .nack →
      complete (.send b) d s = { s with ctl := { s.ctl with
        inflight := none, status := .mtDataNack, phase := .transferring,
        trace := s.ctl.trace ++ [.send b .mtDataNack] } })

/-- Completion of RECV_ACK, RECV_NACK and STOP (the pseudocode of R89, R90 and R91). -/
def Obligations.ReceiveAndStopCompletion : Prop :=
  ∀ (d : Draw) (s : State),
    complete .recvAck d s = { s with ctl := { s.ctl with
      inflight := none, data := some d.byte, status := .mrDataAck, phase := .transferring,
      trace := s.ctl.trace ++ [.recv .requestMore d.byte .mrDataAck] } }
    ∧ complete .recvNack d s = { s with ctl := { s.ctl with
      inflight := none, data := some d.byte, status := .mrDataNack, phase := .transferring,
      trace := s.ctl.trace ++ [.recv .lastByte d.byte .mrDataNack] } }
    ∧ complete .stop d s = { s with ctl := { s.ctl with
      inflight := none, phase := .stopped, addrPending := false, direction := none,
      status := .noInfo, trace := s.ctl.trace ++ [.stop] } }

/-- R84: what no completion writes, and that none is taken with nothing in flight. -/
def Obligations.CompletionFrame : Prop :=
  (∀ (cmd : Command) (d : Draw) (s : State),
    RatesKept s.ctl (complete cmd d s).ctl ∧ HostKept s (complete cmd d s)
    ∧ (complete cmd d s).control = s.control ∧ (complete cmd d s).returned = s.returned)
  ∧ ∀ s : State, s.ctl.fault = none → s.ctl.inflight = none → step s = hostStep (advance s)

/-- R92: the transition table of an accepted command and its completion, for a session that meets the
session invariants. -/
def Obligations.TransitionTable : Prop :=
  ∀ (d : Draw) (s : State), SessionInv s.ctl → s.ctl.inflight = none →
    (d.start = .owned → s.ctl.phase.idleEq = true →
      SessionIs (complete .start d s).ctl .started true none .start)
    ∧ (d.start = .owned → s.ctl.phase.active = true →
      SessionIs (complete .start d s).ctl .started true none .repeatedStart)
    ∧ (d.start = .arbLost → SessionIs (complete .start d s).ctl .idle false none .arbLost)
    ∧ (∀ b, meaningful s.ctl (.send b) = true →
        (s.ctl.phase = .started → d.ack = .ack →
          SessionIs (complete (.send b) d s).ctl .addressed false (some (slaDir b))
            (addressStatus (slaDir b) .ack))
        ∧ (s.ctl.phase = .started → d.ack = .nack →
          SessionIs (complete (.send b) d s).ctl .started false none
            (addressStatus (slaDir b) .nack))
        ∧ (s.ctl.phase.carriesBytes = true → d.ack = .ack →
          SessionIs (complete (.send b) d s).ctl .transferring false (some .write) .mtDataAck)
        ∧ (s.ctl.phase.carriesBytes = true → d.ack = .nack →
          SessionIs (complete (.send b) d s).ctl .transferring false (some .write) .mtDataNack))
    ∧ (meaningful s.ctl .recvAck = true →
        SessionIs (complete .recvAck d s).ctl .transferring false (some .read) .mrDataAck)
    ∧ (meaningful s.ctl .recvNack = true →
        SessionIs (complete .recvNack d s).ctl .transferring false (some .read) .mrDataNack)
    ∧ SessionIs (complete .stop d s).ctl .stopped false none .noInfo

/-! ## The step -/

/-- The environment's turn with a command in flight: the step is its completion, whatever the draw. -/
def Obligations.StepCompletesTheCommandInFlight : Prop :=
  ∀ (s : State) (cmd : Command), s.ctl.fault = none → s.ctl.inflight = some cmd →
    s.turn = .environment → step s = .next (complete cmd (Config.draw s.tick) (advance s))

/-- The host's move runs the decoded instruction: the character at the cursor in a run, else the head of
its program; around `exec` the step counts itself, draws the next turn and takes the action off. -/
def Obligations.StepRunsTheDecodedInstruction : Prop :=
  ∀ s : State, HostMoves s →
    (∀ (ch : Byte) (i : Instr), s.running = true → s.interp.cmdStr[s.interp.cursor]? = some ch →
      decode (.character ch) = .ok i → step s = exec i (advance s))
    ∧ (∀ (off : Offset) (v : Word16) (rest : List Action) (i : Instr), s.running = false →
      s.program = .regWrite off v :: rest → decode (.write off v) = .ok i →
      step s = exec i { advance s with program := rest })
    ∧ (∀ (f : HostFunction) (rest : List Action) (i : Instr), s.running = false →
      s.program = .call f :: rest → decode (.call f) = .ok i →
      step s = exec i { advance s with program := rest })

/-- `await_complete()` (R94): while the command is in flight and the turn is the host's, the loop goes round
with nothing changed; the host program's own wait ends at the first pass after the completion. -/
def Obligations.AwaitCompleteSpinsThenReturns : Prop :=
  (∀ (s : State) (k : Await) (cmd : Command), s.ctl.fault = none → s.ctl.inflight = some cmd →
    s.turn = .host → s.control = .polling k → step s = .next (advance s))
  ∧ (∀ (s : State) (rest : List Action), HostMoves s → s.running = false →
    s.program = .awaitComplete :: rest →
    step s = .next { advance s with
      program := rest, control := .polling ⟨.awaitComplete, .host⟩ })
  ∧ ∀ s : State, s.ctl.fault = none → s.ctl.inflight = none →
      s.control = .polling ⟨.awaitComplete, .host⟩ →
      step s = .next { advance s with control := .ready, returned := some .unit }

/-- R132: what a raise writes, and that a faulted machine takes no step and runs no instruction. -/
def Obligations.FaultIsTerminalAndSticky : Prop :=
  (∀ (r : Fault) (s : State), s.ctl.fault = none →
    raise r s = { s with ctl := { s.ctl with fault := some r } })
  ∧ (∀ (r r0 : Fault) (s : State), s.ctl.fault = some r0 → raise r s = s)
  ∧ ∀ (r : Fault) (s : State), s.ctl.fault = some r →
      step s = .fault r ∧ ∀ i : Instr, exec i s = .fault r

/-- No step stops a machine that holds no fault, and none refuses: faults come from `C.fault` alone. -/
def Obligations.UnfaultedMachineAlwaysSteps : Prop :=
  ∀ s : State, s.ctl.fault = none → (∃ t, step s = .next t) ∧ ∀ i : Instr, ∃ t, exec i s = .next t

/-- The session's phase, direction, address flag and status change in completion steps alone (R29). -/
def Obligations.OnlyCompletionsMoveTheSession : Prop :=
  ∀ s t : State, step s = .next t → (s.ctl.inflight = none ∨ s.turn = .host) →
    t.ctl.phase = s.ctl.phase ∧ t.ctl.direction = s.ctl.direction
    ∧ t.ctl.addrPending = s.ctl.addrPending ∧ t.ctl.status = s.ctl.status

/-- The bit-rate fields and `configured` change by a BITRATE write and by setup alone (R31, R79, R80):
of the instructions only those two write them, and of the steps only one whose move is such a write or a
call of setup; no completion, pass of a wait, token, register read or other write does. -/
def Obligations.OnlyBitrateWritesChangeTheBitRate : Prop :=
  (∀ (i : Instr) (s t : State), exec i s = .next t →
    (∀ p d, i ≠ .bitrateWrite p d) → (∀ base target, i ≠ .setup base target) →
    t.ctl.configured = s.ctl.configured ∧ t.ctl.prescalerExponent = s.ctl.prescalerExponent
    ∧ t.ctl.divisor = s.ctl.divisor)
  ∧ ∀ s t : State, step s = .next t →
    (t.ctl.configured = s.ctl.configured ∧ t.ctl.prescalerExponent = s.ctl.prescalerExponent
      ∧ t.ctl.divisor = s.ctl.divisor)
    ∨ (HostMoves s ∧ s.running = false ∧ t.ctl.configured = true
      ∧ ∃ rest, (∃ v, s.program = .regWrite 3 v :: rest)
        ∨ ∃ base target, s.program = .call (.setup base target) :: rest)

/-- The trace only grows, by at most one event a step (R39). -/
def Obligations.TraceOnlyGrows : Prop :=
  ∀ s t : State, step s = .next t →
    t.ctl.trace = s.ctl.trace ∨ ∃ e, t.ctl.trace = s.ctl.trace ++ [e]

/-- DATA is written when a SEND is issued and when a RECV completes, and at no other time (R30). -/
def Obligations.DataHasTwoWriters : Prop :=
  ∀ s t : State, step s = .next t →
    t.ctl.data = s.ctl.data
    ∨ (∃ b, s.ctl.inflight = none ∧ t.ctl.inflight = some (.send b) ∧ t.ctl.data = some b)
    ∨ ((s.ctl.inflight = some .recvAck ∨ s.ctl.inflight = some .recvNack)
        ∧ t.ctl.inflight = none ∧ t.ctl.data = some (Config.draw s.tick).byte)

/-- During a run no step changes the command string or the write values, the number of slots, or any
slot but the next one (R42, R47 to R49); the step that ends the run discards all of `S` but the slots
(R36, R145; what stands in its place is the model's choice, log entry 7). -/
def Obligations.RunWritesOnlyTheNextSlot : Prop :=
  ∀ s t : State, s.running = true → step s = .next t →
    (t.running = true →
      t.interp.cmdStr = s.interp.cmdStr ∧ t.interp.writeValues = s.interp.writeValues)
    ∧ (t.running = false → t.interp = Interp.initial [] s.interp.readTargets [])
    ∧ t.interp.readTargets.length = s.interp.readTargets.length
    ∧ ∀ j, j ≠ s.interp.readIdx → t.interp.readTargets[j]? = s.interp.readTargets[j]?

/-- The frame of every instruction outside the controller: only `run` starts a run or replaces the
sequences, and none touches the host program or the pace of the free values. -/
def Obligations.InstructionFrame : Prop :=
  ∀ (i : Instr) (s t : State), exec i s = .next t →
    t.program = s.program ∧ t.turn = s.turn ∧ t.tick = s.tick
    ∧ ((∀ c r w, i ≠ .run c r w) →
        t.running = s.running ∧ t.interp.cmdStr = s.interp.cmdStr
        ∧ t.interp.readTargets = s.interp.readTargets
        ∧ t.interp.writeValues = s.interp.writeValues
        ∧ t.interp.readIdx = s.interp.readIdx ∧ t.interp.readCount = s.interp.readCount)

/-! ## Invariants -/

/-- The session invariants of R24 and R25 are kept by every step. -/
def Obligations.SessionInvariantIsKept : Prop :=
  ∀ s t : State, SessionInv s.ctl → step s = .next t → SessionInv t.ctl

/-- The invariant of the whole machine, the host's thread, the interpreter's indices and the discarded
`S` outside a run (R36; log entry 7) included, is kept by every step. -/
def Obligations.MachineInvariantIsKept : Prop :=
  ∀ s t : State, Inv s → step s = .next t → Inv t

/-- Faults come from host misuse alone (R103): once a primitive's first command is accepted, no step of
its wait, whatever the environment answers, ends in a fault. -/
def Obligations.WaitingPrimitiveNeverFaults : Prop :=
  ∀ (s : State) (k : Await), Inv s → s.ctl.fault = none → s.control = .polling k →
    ∃ t, step s = .next t ∧ t.ctl.fault = none

/-! ## Bus Driver primitives -/

/-- A completion and the pass of `await_complete()` after it are two steps of the machine: the fused form
of R93 for a host that polls. -/
def Obligations.ServeIsTwoSteps : Prop :=
  ∀ (s : State) (k : Await) (cmd : Command), s.ctl.fault = none → s.ctl.inflight = some cmd →
    s.turn = .environment → s.control = .polling k →
    ∃ t, step s = .next t ∧ t.ctl.inflight = none
      ∧ step t = .next (serve (Config.draw s.tick) (advance (advance s)))

/-- R96: `startCondition()` issues START, waits, and returns whether the bus was obtained. -/
def Obligations.StartConditionReturns : Prop :=
  ∀ (s : State) (d : Draw), CanIssue .start s →
    ∃ t, exec .startCondition s = .next t
      ∧ t = { s with ctl := { s.ctl with inflight := some .start },
                     control := .polling ⟨.startCondition, .host⟩ }
      ∧ (d.start = .owned → (serve d t).returned = some (.bool true)
          ∧ (serve d t).ctl.phase = .started ∧ (serve d t).ctl.addrPending = true)
      ∧ (d.start = .arbLost → (serve d t).returned = some (.bool false)
          ∧ (serve d t).ctl.phase = .idle
          ∧ (serve d t).ctl.trace = s.ctl.trace ++ [.start .arbLost])
      ∧ (serve d t).control = .ready ∧ (serve d t).ctl.inflight = none
      ∧ RatesKept s.ctl (serve d t).ctl ∧ HostKept s (serve d t)

/-- `addressedStart(a, d)` (R97): the byte `sla(a, d)` follows a start that was obtained, and the result
is whether both succeeded; nothing is stopped after a no-acknowledge. -/
def Obligations.AddressedStartReturns : Prop :=
  ∀ (s : State) (a : SlaveAddr) (d : Dir) (d1 d2 : Draw), CanIssue .start s →
    ∃ t, exec (.addressedStart a d) s = .next t
      ∧ t = { s with ctl := { s.ctl with inflight := some .start },
                     control := .polling ⟨.addressedStart a d, .host⟩ }
      ∧ (d1.start = .arbLost → (serve d1 t).returned = some (.bool false)
          ∧ (serve d1 t).control = .ready ∧ (serve d1 t).ctl.inflight = none
          ∧ SessionIs (serve d1 t).ctl .idle false none .arbLost)
      ∧ (d1.start = .owned → (serve d1 t).ctl.inflight = some (.send (sla a d))
          ∧ (serve d1 t).ctl.data = some (sla a d)
          ∧ (serveAll [d1, d2] t).control = .ready ∧ (serveAll [d1, d2] t).ctl.inflight = none
          ∧ RatesKept s.ctl (serveAll [d1, d2] t).ctl ∧ HostKept s (serveAll [d1, d2] t)
          ∧ (d2.ack = .ack → (serveAll [d1, d2] t).returned = some (.bool true)
              ∧ SessionIs (serveAll [d1, d2] t).ctl .addressed false (some d) (addressStatus d .ack))
          ∧ (d2.ack = .nack → (serveAll [d1, d2] t).returned = some (.bool false)
              ∧ SessionIs (serveAll [d1, d2] t).ctl .started false none (addressStatus d .nack)))

/-- `retryingAddressedStart(a, d)` (R98, 95_test_vectors.md T5), called from any phase: after any number of
rounds whose start is obtained and whose address is not acknowledged it is still trying, with one stop a
round; the first acknowledge ends it, addressed with the given direction. Its first start is a repeated
one when the session was active, and no later one is (R86). -/
def Obligations.RetryReturnsAfterTheFirstAcknowledge : Prop :=
  ∀ (s : State) (a : SlaveAddr) (d : Dir) (rounds : List (Draw × Draw × Draw)) (d1 d2 : Draw),
    CanIssue .start s →
    (∀ r ∈ rounds, r.1.start = .owned ∧ r.2.1.ack = .nack) → d1.start = .owned → d2.ack = .ack →
    ∃ t, exec (.retryingAddressedStart a d) s = .next t
      ∧ t = { s with ctl := { s.ctl with inflight := some .start },
                     control := .polling ⟨.retryStart a d, .host⟩ }
      ∧ (let m := serveAll (rounds.flatMap fun r => [r.1, r.2.1, r.2.2]) t
         m.control = .polling ⟨.retryStart a d, .host⟩ ∧ m.ctl.inflight = some .start
         ∧ m.returned = s.returned
         ∧ m.ctl.trace =
            s.ctl.trace ++ retryRounds (startStatus s.ctl.phase) a d rounds.length)
      ∧ (let u := serveAll ((rounds.flatMap fun r => [r.1, r.2.1, r.2.2]) ++ [d1, d2]) t
         u.control = .ready ∧ u.ctl.inflight = none ∧ u.returned = some .unit
         ∧ SessionIs u.ctl .addressed false (some d) (addressStatus d .ack)
         ∧ RatesKept s.ctl u.ctl ∧ HostKept s u
         ∧ u.ctl.trace = s.ctl.trace
            ++ retryRounds (startStatus s.ctl.phase) a d rounds.length
            ++ [.start (if rounds.length = 0 then startStatus s.ctl.phase else .start),
                .send (sla a d) (addressStatus d .ack)])

/-- An arbitration loss in `retryingAddressedStart` starts it again at once, with no stop (R98). -/
def Obligations.RetryAfterArbitrationLoss : Prop :=
  ∀ (s : State) (a : SlaveAddr) (d : Dir) (d1 : Draw), s.ctl.configured = true →
    s.ctl.inflight = some .start → s.control = .polling ⟨.retryStart a d, .host⟩ →
    d1.start = .arbLost →
    serve d1 s = { s with ctl := { s.ctl with
      status := .arbLost, phase := .idle, addrPending := false, direction := none,
      trace := s.ctl.trace ++ [.start .arbLost] } }

/-- `writeByte(v)` (R99): true exactly for an acknowledged data byte; as the address byte after a start it
returns false even when acknowledged. -/
def Obligations.WriteByteReturns : Prop :=
  ∀ (s : State) (v : Byte) (d : Draw), CanIssue (.send v) s →
    ∃ t, exec (.writeByte v) s = .next t
      ∧ t = { s with ctl := { s.ctl with data := some v, inflight := some (.send v) },
                     control := .polling ⟨.writeByte, .host⟩ }
      ∧ (s.ctl.addrPending = false → d.ack = .ack → (serve d t).returned = some (.bool true)
          ∧ (serve d t).ctl.status = .mtDataAck)
      ∧ (s.ctl.addrPending = false → d.ack = .nack → (serve d t).returned = some (.bool false)
          ∧ (serve d t).ctl.status = .mtDataNack)
      ∧ (s.ctl.addrPending = false → (serve d t).ctl.phase = .transferring)
      ∧ (s.ctl.addrPending = true → (serve d t).returned = some (.bool false)
          ∧ (serve d t).ctl.status = addressStatus (slaDir v) d.ack)
      ∧ (serve d t).control = .ready ∧ (serve d t).ctl.inflight = none
      ∧ RatesKept s.ctl (serve d t).ctl ∧ HostKept s (serve d t)

/-- `readByte(mode)` (R100, R101): it returns the byte drawn, whatever the byte. -/
def Obligations.ReadByteReturns : Prop :=
  (∀ (s : State) (d : Draw), CanIssue .recvAck s →
    ∃ t, exec .readByteRequestMore s = .next t
      ∧ t = { s with ctl := { s.ctl with inflight := some .recvAck },
                     control := .polling ⟨.readByte, .host⟩ }
      ∧ serve d t = { s with
          ctl := { s.ctl with
            data := some d.byte, status := .mrDataAck, phase := .transferring,
            trace := s.ctl.trace ++ [.recv .requestMore d.byte .mrDataAck] },
          control := .ready, returned := some (.byte d.byte) })
  ∧ ∀ (s : State) (d : Draw), CanIssue .recvNack s →
    ∃ t, exec .readByteLastByte s = .next t
      ∧ t = { s with ctl := { s.ctl with inflight := some .recvNack },
                     control := .polling ⟨.readByte, .host⟩ }
      ∧ serve d t = { s with
          ctl := { s.ctl with
            data := some d.byte, status := .mrDataNack, phase := .transferring,
            trace := s.ctl.trace ++ [.recv .lastByte d.byte .mrDataNack] },
          control := .ready, returned := some (.byte d.byte) }

/-- `stopCondition()` (R102): from every phase it ends idle-equivalent with one `Stop`. -/
def Obligations.StopConditionReturns : Prop :=
  ∀ (s : State) (d : Draw), CanIssue .stop s →
    ∃ t, exec .stopCondition s = .next t
      ∧ t = { s with ctl := { s.ctl with inflight := some .stop },
                     control := .polling ⟨.stopCondition, .host⟩ }
      ∧ serve d t = { s with
          ctl := { s.ctl with
            phase := .stopped, addrPending := false, direction := none, status := .noInfo,
            trace := s.ctl.trace ++ [.stop] },
          control := .ready, returned := some .unit }

/-- A primitive, or a token that calls one, whose first command is not accepted raises that command's
fault, issues nothing and returns nothing, and the cursor stays (R96 to R102, R104, R109 to R112, R115 to
R122, with R81 and R82; program P6 of 95_test_vectors.md). `u` is what the rule wrote before the raise
(R132): nothing, but for a write token its pending literal and `writeIdx` (R119). -/
def Obligations.PrimitiveFaults : Prop :=
  ∀ (s u : State) (i : Instr) (cmd : Command), s.ctl.fault = none →
    (u = s ∧
      ((i = .startCondition ∧ cmd = .start) ∨ (∃ a d, i = .addressedStart a d ∧ cmd = .start)
        ∨ (∃ a d, i = .retryingAddressedStart a d ∧ cmd = .start)
        ∨ (∃ v, i = .writeByte v ∧ cmd = .send v) ∨ (i = .readByteRequestMore ∧ cmd = .recvAck)
        ∨ (i = .readByteLastByte ∧ cmd = .recvNack) ∨ (i = .stopCondition ∧ cmd = .stop)
        ∨ ((i = .startBrace ∨ i = .startBracket) ∧ cmd = .start)
        ∨ ((i = .stopBrace ∨ i = .stopBracket) ∧ cmd = .stop)
        ∨ ((i = .readMoreLower ∨ i = .readMoreUpper) ∧ cmd = .recvAck
          ∧ s.interp.readIdx < s.interp.readTargets.length)
        ∨ ((i = .readLastLower ∨ i = .readLastUpper) ∧ cmd = .recvNack
          ∧ s.interp.readIdx < s.interp.readTargets.length)
        ∨ ((i = .delimitSpace ∨ i = .delimitComma) ∧ s.interp.pending = true
          ∧ cmd = .send (BitVec.ofNat 8 (s.interp.acc % 256))))
      ∨ ((i = .writeNextLower ∨ i = .writeNextUpper) ∧ ∃ v : Byte,
        s.interp.writeValues[s.interp.writeIdx]? = some v ∧ cmd = .send v
        ∧ u = { s with interp := { s.interp with
            pending := true, acc := v.toNat, writeIdx := s.interp.writeIdx + 1 } })) →
    (s.ctl.configured = false → exec i s = .next (raise .unconfigured u))
    ∧ (s.ctl.configured = true → s.ctl.inflight ≠ none →
        exec i s = .next (raise .commandWhileBusy u))
    ∧ (s.ctl.configured = true → s.ctl.inflight = none → meaningful s.ctl cmd = false →
        exec i s = .next (raise .protocolMisuse u))

/-! ## Clock Configurator -/

/-- R78 with the loop of R74, under the termwise reading (R75; log entry 6): Ok(p, d) exactly when `p` is the first exponent whose divisor is at most
255 and that divisor is `d`, not negative; Err in every other case. -/
def Obligations.ClockParametersAreTheFirstFit : Prop :=
  ∀ (base target : Nat) (p : BitVec 2) (d : Byte),
    computeClockParameters .termwise base target = .ok p d ↔
      0 < target
      ∧ (∀ q < p.toNat, (255 : Int) < (base / (target * 4 ^ q * 2) : Nat) - (8 / 4 ^ q : Nat))
      ∧ ((base / (target * 4 ^ p.toNat * 2) : Nat) : Int) - (8 / 4 ^ p.toNat : Nat) = d.toNat

/-- An Ok of the termwise reading at exponent 0 or 1 is also the result of the exact one (R75). The
converse fails: R75 (b) has the exact reading give Ok(0, 0) where the termwise one gives Err. -/
def Obligations.TermwiseOkAtSmallExponentsIsExact : Prop :=
  ∀ (base target : Nat) (p : BitVec 2) (d : Byte), p.toNat ≤ 1 →
    computeClockParameters .termwise base target = .ok p d →
    computeClockParameters .exact base target = .ok p d

/-- `computeClockParameters` and `setup` called by the host (R74, R80): the first is pure; the second
writes the bit-rate word on success and nothing on failure. Both compute under the termwise reading, which
is the model's choice for the parameter `CLOCK_DIV_READING` (log entry 6). -/
def Obligations.ClockFunctionsReturn : Prop :=
  ∀ (base target : Nat) (s : State), s.ctl.fault = none → s.control = .ready →
    exec (.computeClockParameters base target) s = .next { s with
      returned := some (.clock (computeClockParameters .termwise base target)) }
    ∧ (∀ p d, computeClockParameters .termwise base target = .ok p d → s.ctl.inflight = none →
        exec (.setup base target) s = .next { s with
          ctl := { s.ctl with prescalerExponent := p, divisor := d, configured := true },
          returned := some (.setup true) })
    ∧ (∀ p d, computeClockParameters .termwise base target = .ok p d → s.ctl.inflight ≠ none →
        exec (.setup base target) s = .next (raise .writeWhileBusy s))
    ∧ (computeClockParameters .termwise base target = .unreachableBitrate →
        exec (.setup base target) s = .next { s with returned := some (.setup false) })

/-! ## Command Interpreter -/

/-- `run` begins with the record of R35 made afresh (R104). -/
def Obligations.RunStartsAFreshScan : Prop :=
  ∀ (cmdStr readTargets writeValues : List Byte) (s : State), s.ctl.fault = none →
    s.control = .ready →
    exec (.run cmdStr readTargets writeValues) s = .next { s with
      running := true
      interp := { cmdStr := cmdStr, cursor := 0, radix := .ten, acc := 0, pending := false,
                  readCount := 0, readIdx := 0, writeIdx := 0, readTargets := readTargets,
                  writeValues := writeValues } }

/-- The end of a run (R108) and its result (R104): left-over operands fault; otherwise `readCount` is
returned, a pending literal is not written, no command is issued, and of `S` only the caller's slots are
left (R36, R145; what stands in its place is the model's choice, log entry 7). -/
def Obligations.RunEnds : Prop :=
  ∀ s : State, HostMoves s → s.running = true → s.interp.cursor = s.interp.cmdStr.length →
    (s.interp.readIdx ≠ s.interp.readTargets.length
      ∨ s.interp.writeIdx ≠ s.interp.writeValues.length →
      step s = .next (raise .operandSurplus (advance s)))
    ∧ (s.interp.readIdx = s.interp.readTargets.length →
        s.interp.writeIdx = s.interp.writeValues.length →
        step s = .next { advance s with
          running := false, returned := some (.readCount s.interp.readCount)
          interp := Interp.initial [] s.interp.readTargets [] })

/-- The two start tokens (R109, R110): a START, its result dropped, and only the cursor of `S` moves. -/
def Obligations.StartTokens : Prop :=
  ∀ (i : Instr) (s : State) (d : Draw), i = .startBrace ∨ i = .startBracket → CanIssue .start s →
    ∃ t, exec i s = .next t
      ∧ t = { s with ctl := { s.ctl with inflight := some .start },
                     control := .polling ⟨.startCondition, .interpreter⟩ }
      ∧ (serve d t).interp = { s.interp with cursor := s.interp.cursor + 1 }
      ∧ (serve d t).control = .ready ∧ (serve d t).returned = s.returned
      ∧ (serve d t).ctl = (complete .start d t).ctl

/-- The two stop tokens (R111, R112). -/
def Obligations.StopTokens : Prop :=
  ∀ (i : Instr) (s : State) (d : Draw), i = .stopBrace ∨ i = .stopBracket → CanIssue .stop s →
    ∃ t, exec i s = .next t
      ∧ t = { s with ctl := { s.ctl with inflight := some .stop },
                     control := .polling ⟨.stopCondition, .interpreter⟩ }
      ∧ (serve d t).interp = { s.interp with cursor := s.interp.cursor + 1 }
      ∧ (serve d t).control = .ready ∧ (serve d t).returned = s.returned
      ∧ (serve d t).ctl = (complete .stop d t).ctl

/-- The radix tokens (R113, R114): the radix, under every radix, and the cursor; nothing else. -/
def Obligations.RadixTokens : Prop :=
  ∀ s : State, s.ctl.fault = none → s.control = .ready →
    exec .radix16 s = .next { s with interp := { s.interp with
      radix := .sixteen, cursor := s.interp.cursor + 1 } }
    ∧ exec .radix2 s = .next { s with interp := { s.interp with
      radix := .two, cursor := s.interp.cursor + 1 } }

/-- The read tokens (R115 to R118 by R107): with a slot left and a meaningful read, the byte drawn lands
in the next slot and is counted; the literal and the radix stay. -/
def Obligations.ReadTokens : Prop :=
  ∀ (i : Instr) (cmd : Command) (s : State) (d : Draw),
    ((i = .readMoreLower ∨ i = .readMoreUpper) ∧ cmd = .recvAck)
      ∨ ((i = .readLastLower ∨ i = .readLastUpper) ∧ cmd = .recvNack) →
    CanIssue cmd s → s.interp.readIdx < s.interp.readTargets.length →
    ∃ t, exec i s = .next t
      ∧ t = { s with ctl := { s.ctl with inflight := some cmd },
                     control := .polling ⟨.readByte, .interpreter⟩ }
      ∧ (serve d t).interp = { s.interp with
          readTargets := s.interp.readTargets.set s.interp.readIdx d.byte
          readIdx := s.interp.readIdx + 1, readCount := s.interp.readCount + 1
          cursor := s.interp.cursor + 1 }
      ∧ (serve d t).control = .ready ∧ (serve d t).returned = s.returned
      ∧ (serve d t).ctl = (complete cmd d t).ctl

/-- The write tokens (R119, R120): the next write value takes the literal's place, is written, and the
literal is reset when the write returns. -/
def Obligations.WriteTokens : Prop :=
  ∀ (i : Instr) (s : State) (v : Byte) (d : Draw), i = .writeNextLower ∨ i = .writeNextUpper →
    s.interp.writeValues[s.interp.writeIdx]? = some v → CanIssue (.send v) s →
    ∃ t, exec i s = .next t
      ∧ t = { s with
          ctl := { s.ctl with data := some v, inflight := some (.send v) }
          interp := { s.interp with
            pending := true, acc := v.toNat, writeIdx := s.interp.writeIdx + 1 }
          control := .polling ⟨.writeByte, .interpreter⟩ }
      ∧ (serve d t).interp = { s.interp with
          radix := .ten, acc := 0, pending := false
          writeIdx := s.interp.writeIdx + 1, cursor := s.interp.cursor + 1 }
      ∧ (serve d t).control = .ready ∧ (serve d t).returned = s.returned
      ∧ (serve d t).ctl = (complete (.send v) d t).ctl

/-- The delimiters (R121, R122 by R106): a pending literal is written modulo 256 and then reset; with none
pending only the reset and the cursor. -/
def Obligations.DelimiterTokens : Prop :=
  ∀ (i : Instr) (s : State) (d : Draw), i = .delimitSpace ∨ i = .delimitComma →
    s.ctl.fault = none →
    (s.interp.pending = false → s.control = .ready →
      exec i s = .next { s with interp := { s.interp with
        radix := .ten, acc := 0, pending := false, cursor := s.interp.cursor + 1 } })
    ∧ (s.interp.pending = true → CanIssue (.send (BitVec.ofNat 8 (s.interp.acc % 256))) s →
      ∃ t, exec i s = .next t
        ∧ t = { s with
            ctl := { s.ctl with
              data := some (BitVec.ofNat 8 (s.interp.acc % 256))
              inflight := some (.send (BitVec.ofNat 8 (s.interp.acc % 256))) }
            control := .polling ⟨.writeByte, .interpreter⟩ }
        ∧ (serve d t).interp = { s.interp with
            radix := .ten, acc := 0, pending := false, cursor := s.interp.cursor + 1 }
        ∧ (serve d t).control = .ready ∧ (serve d t).returned = s.returned
        ∧ (serve d t).ctl = (complete (.send (BitVec.ofNat 8 (s.interp.acc % 256))) d t).ctl)

/-- The delay token (R123): one event; every other field of `C` and of `S` but the cursor is kept. -/
def Obligations.DelayToken : Prop :=
  ∀ s : State, s.ctl.fault = none → s.control = .ready →
    exec .delay1us s = .next { s with
      ctl := { s.ctl with trace := s.ctl.trace ++ [.delay1us] }
      interp := { s.interp with cursor := s.interp.cursor + 1 } }

/-- The digit rows (R124): under a radix above its value, a digit is appended to the literal. -/
def Obligations.DigitRowsAccumulate : Prop :=
  ∀ (i : Instr) (dv : Nat) (s : State), (i, dv) ∈ digitRows → s.ctl.fault = none →
    s.control = .ready → dv < s.interp.radix.base →
    exec i s = .next { s with interp := { s.interp with
      acc := s.interp.acc * s.interp.radix.base + dv, pending := true
      cursor := s.interp.cursor + 1 } }

/-- R125: an unmatched byte, and a digit not valid under the radix, only move the cursor. -/
def Obligations.IgnoredCharacters : Prop :=
  (∀ (b : Byte) (s : State), s.ctl.fault = none → s.control = .ready →
    exec (.ignore b) s = .next { s with interp := { s.interp with
      cursor := s.interp.cursor + 1 } })
  ∧ (∀ b : Byte, isNamedCharacter b = false → decode (.character b) = .ok (.ignore b))
  ∧ ∀ (i : Instr) (dv : Nat) (s : State), (i, dv) ∈ digitRows → s.ctl.fault = none →
      s.control = .ready → s.interp.radix.base ≤ dv →
      exec i s = .next { s with interp := { s.interp with cursor := s.interp.cursor + 1 } }

/-- R133: a token with no operand left faults before it issues any bus command. -/
def Obligations.OperandFaults : Prop :=
  (∀ (i : Instr) (s : State),
    i = .readMoreLower ∨ i = .readMoreUpper ∨ i = .readLastLower ∨ i = .readLastUpper →
    s.ctl.fault = none → s.interp.readTargets.length ≤ s.interp.readIdx →
    exec i s = .next { s with ctl := { s.ctl with fault := some .operandUnderflow } })
  ∧ ∀ (i : Instr) (s : State), i = .writeNextLower ∨ i = .writeNextUpper →
    s.ctl.fault = none → s.interp.writeValues.length ≤ s.interp.writeIdx →
    exec i s = .next { s with ctl := { s.ctl with fault := some .operandUnderflow } }
end

