-- ==== Sys2Proof/Laws/State.lean ====
section
/-! SUPPORT. One lemma per field and per named update of the state, each true by unfolding the update
once. Later proofs rewrite with these and unfold no record. -/

namespace Sys2Proof.Machine


/-! ## `raise` -/

@[simp] theorem raise_interp (r : Fault) (s : State) : (raise r s).interp = s.interp := rfl
@[simp] theorem raise_running (r : Fault) (s : State) : (raise r s).running = s.running := rfl
@[simp] theorem raise_control (r : Fault) (s : State) : (raise r s).control = s.control := rfl
@[simp] theorem raise_program (r : Fault) (s : State) : (raise r s).program = s.program := rfl
@[simp] theorem raise_returned (r : Fault) (s : State) : (raise r s).returned = s.returned := rfl
@[simp] theorem raise_turn (r : Fault) (s : State) : (raise r s).turn = s.turn := rfl
@[simp] theorem raise_tick (r : Fault) (s : State) : (raise r s).tick = s.tick := rfl
@[simp] theorem raise_ctl_phase (r : Fault) (s : State) : (raise r s).ctl.phase = s.ctl.phase := rfl
@[simp] theorem raise_ctl_direction (r : Fault) (s : State) :
    (raise r s).ctl.direction = s.ctl.direction := rfl
@[simp] theorem raise_ctl_addrPending (r : Fault) (s : State) :
    (raise r s).ctl.addrPending = s.ctl.addrPending := rfl
@[simp] theorem raise_ctl_inflight (r : Fault) (s : State) :
    (raise r s).ctl.inflight = s.ctl.inflight := rfl
@[simp] theorem raise_ctl_status (r : Fault) (s : State) :
    (raise r s).ctl.status = s.ctl.status := rfl
@[simp] theorem raise_ctl_data (r : Fault) (s : State) : (raise r s).ctl.data = s.ctl.data := rfl
@[simp] theorem raise_ctl_configured (r : Fault) (s : State) :
    (raise r s).ctl.configured = s.ctl.configured := rfl
@[simp] theorem raise_ctl_prescalerExponent (r : Fault) (s : State) :
    (raise r s).ctl.prescalerExponent = s.ctl.prescalerExponent := rfl
@[simp] theorem raise_ctl_divisor (r : Fault) (s : State) :
    (raise r s).ctl.divisor = s.ctl.divisor := rfl
@[simp] theorem raise_ctl_fault (r : Fault) (s : State) :
    (raise r s).ctl.fault = some (s.ctl.fault.getD r) := rfl
@[simp] theorem raise_ctl_trace (r : Fault) (s : State) : (raise r s).ctl.trace = s.ctl.trace := rfl

/-! ## `ret` -/

@[simp] theorem ret_ctl (v : ReturnValue) (s : State) : (ret v s).ctl = s.ctl := rfl
@[simp] theorem ret_interp (v : ReturnValue) (s : State) : (ret v s).interp = s.interp := rfl
@[simp] theorem ret_running (v : ReturnValue) (s : State) : (ret v s).running = s.running := rfl
@[simp] theorem ret_control (v : ReturnValue) (s : State) : (ret v s).control = .ready := rfl
@[simp] theorem ret_program (v : ReturnValue) (s : State) : (ret v s).program = s.program := rfl
@[simp] theorem ret_returned (v : ReturnValue) (s : State) : (ret v s).returned = some v := rfl
@[simp] theorem ret_turn (v : ReturnValue) (s : State) : (ret v s).turn = s.turn := rfl
@[simp] theorem ret_tick (v : ReturnValue) (s : State) : (ret v s).tick = s.tick := rfl

/-! ## `nextCharacter` -/

@[simp] theorem nextCharacter_ctl (s : State) : (nextCharacter s).ctl = s.ctl := rfl
@[simp] theorem nextCharacter_interp_cmdStr (s : State) :
    (nextCharacter s).interp.cmdStr = s.interp.cmdStr := rfl
@[simp] theorem nextCharacter_interp_cursor (s : State) :
    (nextCharacter s).interp.cursor = s.interp.cursor + 1 := rfl
@[simp] theorem nextCharacter_interp_radix (s : State) :
    (nextCharacter s).interp.radix = s.interp.radix := rfl
@[simp] theorem nextCharacter_interp_acc (s : State) :
    (nextCharacter s).interp.acc = s.interp.acc := rfl
@[simp] theorem nextCharacter_interp_pending (s : State) :
    (nextCharacter s).interp.pending = s.interp.pending := rfl
@[simp] theorem nextCharacter_interp_readCount (s : State) :
    (nextCharacter s).interp.readCount = s.interp.readCount := rfl
@[simp] theorem nextCharacter_interp_readIdx (s : State) :
    (nextCharacter s).interp.readIdx = s.interp.readIdx := rfl
@[simp] theorem nextCharacter_interp_writeIdx (s : State) :
    (nextCharacter s).interp.writeIdx = s.interp.writeIdx := rfl
@[simp] theorem nextCharacter_interp_readTargets (s : State) :
    (nextCharacter s).interp.readTargets = s.interp.readTargets := rfl
@[simp] theorem nextCharacter_interp_writeValues (s : State) :
    (nextCharacter s).interp.writeValues = s.interp.writeValues := rfl
@[simp] theorem nextCharacter_running (s : State) : (nextCharacter s).running = s.running := rfl
@[simp] theorem nextCharacter_control (s : State) : (nextCharacter s).control = .ready := rfl
@[simp] theorem nextCharacter_program (s : State) : (nextCharacter s).program = s.program := rfl
@[simp] theorem nextCharacter_returned (s : State) : (nextCharacter s).returned = s.returned := rfl
@[simp] theorem nextCharacter_turn (s : State) : (nextCharacter s).turn = s.turn := rfl
@[simp] theorem nextCharacter_tick (s : State) : (nextCharacter s).tick = s.tick := rfl

/-! ## `advance` -/

@[simp] theorem advance_ctl (s : State) : (advance s).ctl = s.ctl := rfl
@[simp] theorem advance_interp (s : State) : (advance s).interp = s.interp := rfl
@[simp] theorem advance_running (s : State) : (advance s).running = s.running := rfl
@[simp] theorem advance_control (s : State) : (advance s).control = s.control := rfl
@[simp] theorem advance_program (s : State) : (advance s).program = s.program := rfl
@[simp] theorem advance_returned (s : State) : (advance s).returned = s.returned := rfl
@[simp] theorem advance_turn (s : State) : (advance s).turn = Config.nextTurn s.tick := rfl
@[simp] theorem advance_tick (s : State) : (advance s).tick = s.tick + 1 := rfl

/-! ## `clearLiteral` -/

@[simp] theorem clearLiteral_cmdStr (x : Interp) : (clearLiteral x).cmdStr = x.cmdStr := rfl
@[simp] theorem clearLiteral_cursor (x : Interp) : (clearLiteral x).cursor = x.cursor := rfl
@[simp] theorem clearLiteral_radix (x : Interp) : (clearLiteral x).radix = .ten := rfl
@[simp] theorem clearLiteral_acc (x : Interp) : (clearLiteral x).acc = 0 := rfl
@[simp] theorem clearLiteral_pending (x : Interp) : (clearLiteral x).pending = false := rfl
@[simp] theorem clearLiteral_readCount (x : Interp) :
    (clearLiteral x).readCount = x.readCount := rfl
@[simp] theorem clearLiteral_readIdx (x : Interp) : (clearLiteral x).readIdx = x.readIdx := rfl
@[simp] theorem clearLiteral_writeIdx (x : Interp) : (clearLiteral x).writeIdx = x.writeIdx := rfl
@[simp] theorem clearLiteral_readTargets (x : Interp) :
    (clearLiteral x).readTargets = x.readTargets := rfl
@[simp] theorem clearLiteral_writeValues (x : Interp) :
    (clearLiteral x).writeValues = x.writeValues := rfl

/-! ## `Interp.outside` -/

@[simp] theorem outside_cmdStr (l : List Byte) : (Interp.outside l).cmdStr = [] := rfl
@[simp] theorem outside_cursor (l : List Byte) : (Interp.outside l).cursor = 0 := rfl
@[simp] theorem outside_radix (l : List Byte) : (Interp.outside l).radix = .ten := rfl
@[simp] theorem outside_acc (l : List Byte) : (Interp.outside l).acc = 0 := rfl
@[simp] theorem outside_pending (l : List Byte) : (Interp.outside l).pending = false := rfl
@[simp] theorem outside_readCount (l : List Byte) : (Interp.outside l).readCount = 0 := rfl
@[simp] theorem outside_readIdx (l : List Byte) : (Interp.outside l).readIdx = 0 := rfl
@[simp] theorem outside_writeIdx (l : List Byte) : (Interp.outside l).writeIdx = 0 := rfl
@[simp] theorem outside_readTargets (l : List Byte) : (Interp.outside l).readTargets = l := rfl
@[simp] theorem outside_writeValues (l : List Byte) : (Interp.outside l).writeValues = [] := rfl

/-! ## `accept` -/

@[simp] theorem accept_phase (cmd : Command) (c : Controller) :
    (accept cmd c).phase = c.phase := rfl
@[simp] theorem accept_direction (cmd : Command) (c : Controller) :
    (accept cmd c).direction = c.direction := rfl
@[simp] theorem accept_addrPending (cmd : Command) (c : Controller) :
    (accept cmd c).addrPending = c.addrPending := rfl
@[simp] theorem accept_inflight (cmd : Command) (c : Controller) :
    (accept cmd c).inflight = some cmd := rfl
@[simp] theorem accept_status (cmd : Command) (c : Controller) :
    (accept cmd c).status = c.status := rfl
@[simp] theorem accept_data_send (b : Byte) (c : Controller) :
    (accept (.send b) c).data = some b := rfl
@[simp] theorem accept_data_start (c : Controller) : (accept .start c).data = c.data := rfl
@[simp] theorem accept_data_recvAck (c : Controller) : (accept .recvAck c).data = c.data := rfl
@[simp] theorem accept_data_recvNack (c : Controller) : (accept .recvNack c).data = c.data := rfl
@[simp] theorem accept_data_stop (c : Controller) : (accept .stop c).data = c.data := rfl
@[simp] theorem accept_configured (cmd : Command) (c : Controller) :
    (accept cmd c).configured = c.configured := rfl
@[simp] theorem accept_prescalerExponent (cmd : Command) (c : Controller) :
    (accept cmd c).prescalerExponent = c.prescalerExponent := rfl
@[simp] theorem accept_divisor (cmd : Command) (c : Controller) :
    (accept cmd c).divisor = c.divisor := rfl
@[simp] theorem accept_fault (cmd : Command) (c : Controller) :
    (accept cmd c).fault = c.fault := rfl
@[simp] theorem accept_trace (cmd : Command) (c : Controller) :
    (accept cmd c).trace = c.trace := rfl

/-! ## `complete` -/

@[simp] theorem complete_interp (cmd : Command) (d : Draw) (s : State) :
    (complete cmd d s).interp = s.interp := rfl
@[simp] theorem complete_running (cmd : Command) (d : Draw) (s : State) :
    (complete cmd d s).running = s.running := rfl
@[simp] theorem complete_control (cmd : Command) (d : Draw) (s : State) :
    (complete cmd d s).control = s.control := rfl
@[simp] theorem complete_program (cmd : Command) (d : Draw) (s : State) :
    (complete cmd d s).program = s.program := rfl
@[simp] theorem complete_returned (cmd : Command) (d : Draw) (s : State) :
    (complete cmd d s).returned = s.returned := rfl
@[simp] theorem complete_turn (cmd : Command) (d : Draw) (s : State) :
    (complete cmd d s).turn = s.turn := rfl
@[simp] theorem complete_tick (cmd : Command) (d : Draw) (s : State) :
    (complete cmd d s).tick = s.tick := rfl
@[simp] theorem complete_ctl_inflight (cmd : Command) (d : Draw) (s : State) :
    (complete cmd d s).ctl.inflight = none := rfl
@[simp] theorem complete_ctl_phase (cmd : Command) (d : Draw) (s : State) :
    (complete cmd d s).ctl.phase = (completionRule cmd d s.ctl).phase := rfl
@[simp] theorem complete_ctl_direction (cmd : Command) (d : Draw) (s : State) :
    (complete cmd d s).ctl.direction = (completionRule cmd d s.ctl).direction := rfl
@[simp] theorem complete_ctl_addrPending (cmd : Command) (d : Draw) (s : State) :
    (complete cmd d s).ctl.addrPending = (completionRule cmd d s.ctl).addrPending := rfl
@[simp] theorem complete_ctl_status (cmd : Command) (d : Draw) (s : State) :
    (complete cmd d s).ctl.status = (completionRule cmd d s.ctl).status := rfl
@[simp] theorem complete_ctl_data (cmd : Command) (d : Draw) (s : State) :
    (complete cmd d s).ctl.data = (completionRule cmd d s.ctl).data := rfl
@[simp] theorem complete_ctl_configured (cmd : Command) (d : Draw) (s : State) :
    (complete cmd d s).ctl.configured = (completionRule cmd d s.ctl).configured := rfl
@[simp] theorem complete_ctl_prescalerExponent (cmd : Command) (d : Draw) (s : State) :
    (complete cmd d s).ctl.prescalerExponent = (completionRule cmd d s.ctl).prescalerExponent := rfl
@[simp] theorem complete_ctl_divisor (cmd : Command) (d : Draw) (s : State) :
    (complete cmd d s).ctl.divisor = (completionRule cmd d s.ctl).divisor := rfl
@[simp] theorem complete_ctl_fault (cmd : Command) (d : Draw) (s : State) :
    (complete cmd d s).ctl.fault = (completionRule cmd d s.ctl).fault := rfl
@[simp] theorem complete_ctl_trace (cmd : Command) (d : Draw) (s : State) :
    (complete cmd d s).ctl.trace = (completionRule cmd d s.ctl).trace := rfl

end Sys2Proof.Machine
end

