-- ==== Sys2Proof/Laws/Ops.lean ====
section
/-! SUPPORT. What each shared operation can do, said once: later proofs cite these and unfold no
operation. -/

namespace Sys2Proof.Machine

/-! ## Faults and outcomes -/

@[simp] theorem settle_ok (s t : State) : settle s (.ok t) = t := rfl
@[simp] theorem settle_error (s : State) (r : Fault) : settle s (.error r) = raise r s := rfl

theorem act_of_no_fault {s t : State} (h : s.ctl.fault = none) : act s t = .next t := by
  simp [act, h]

theorem act_of_fault {s t : State} {r : Fault} (h : s.ctl.fault = some r) : act s t = .fault r := by
  simp [act, h]

/-- A host action that goes on goes on to its effect, from a machine with no fault. -/
theorem act_next {s t u : State} (h : act s t = .next u) : s.ctl.fault = none ∧ u = t := by
  unfold act at h
  split at h <;> simp_all

/-! ## Issue -/

/-- An accepted command met every check of R81 and R82, and only the controller changed. -/
theorem issue_ok {cmd : Command} {s t : State} (h : issue cmd s = .ok t) :
    s.ctl.configured = true ∧ s.ctl.inflight = none ∧ meaningful s.ctl cmd = true
      ∧ t = { s with ctl := accept cmd s.ctl } := by
  unfold issue at h
  split at h
  · cases h
  · split at h
    · cases h
    · split at h
      · cases h
      · simp_all [Controller.busy]

/-- A command that meets every check is accepted. -/
theorem issue_of_checks {cmd : Command} {s : State} (hc : s.ctl.configured = true)
    (hi : s.ctl.inflight = none) (hm : meaningful s.ctl cmd = true) :
    issue cmd s = .ok { s with ctl := accept cmd s.ctl } := by
  simp [issue, Controller.busy, hc, hi, hm]

/-- Issue and wait either accepts the command and waits, or raises a fault. -/
theorem issueAndWait_cases (k : Await) (cmd : Command) (s : State) :
    (s.ctl.configured = true ∧ s.ctl.inflight = none ∧ meaningful s.ctl cmd = true
      ∧ issueAndWait k cmd s = { s with ctl := accept cmd s.ctl, control := .polling k })
    ∨ ∃ r, issueAndWait k cmd s = raise r s := by
  unfold issueAndWait
  cases h : issue cmd s with
  | error r => exact .inr ⟨r, rfl⟩
  | ok t =>
    obtain ⟨hc, hi, hm, rfl⟩ := issue_ok h
    exact .inl ⟨hc, hi, hm, rfl⟩

/-- A command that meets every check is in flight, and the host waits for it. -/
theorem issueAndWait_of_checks {cmd : Command} {s : State} (k : Await)
    (hc : s.ctl.configured = true) (hi : s.ctl.inflight = none)
    (hm : meaningful s.ctl cmd = true) :
    issueAndWait k cmd s = { s with ctl := accept cmd s.ctl, control := .polling k } := by
  unfold issueAndWait
  rw [issue_of_checks hc hi hm]
  rfl

/-! ## Registers -/

/-- The check on a status table says what R66 asks of it. -/
theorem distinctCodes_iff (codes : Status → Byte) :
    distinctCodes codes = true ↔ ∀ a b, codes a = codes b → a = b := by
  have hall : ∀ a, a ∈ allStatuses := by intro a; cases a <;> decide
  have hnd : allStatuses.Nodup := by decide
  simp only [distinctCodes, decide_eq_true_eq, List.nodup_map_iff_inj_on hnd]
  exact ⟨fun h a b => h a (hall a) b (hall b), fun h a _ b _ => h a b⟩

/-- An accepted bit-rate write found the controller idle and the reserved bits clear (R79). -/
theorem writeBitrate_ok {v : Word16} {s t : State} (h : writeBitrate v s = .ok t) :
    s.ctl.inflight = none ∧ reservedField v = 0 ∧ t = { s with ctl := { s.ctl with
      prescalerExponent := prescalerField v, divisor := lowByte v, configured := true } } := by
  unfold writeBitrate at h
  split at h
  · cases h
  · split at h
    · cases h
    · simp_all [Controller.busy]

/-- COMPLETE is bit 0 of FLAGS (R32). -/
@[simp] theorem flagsWord_complete (c : Controller) : (flagsWord c)[0] = !c.busy := by
  unfold flagsWord
  cases c.configured <;> cases c.busy <;> rfl

/-- CONFIGURED is bit 1 of FLAGS (R32). -/
@[simp] theorem flagsWord_configured (c : Controller) : (flagsWord c)[1] = c.configured := by
  unfold flagsWord
  cases c.configured <;> cases c.busy <;> rfl

/-! ## The wait -/

/-- A pass of the wait with the command in flight does nothing. -/
theorem poll_busy {k : Await} {s : State} {cmd : Command} (h : s.ctl.inflight = some cmd) :
    poll k s = s := by
  simp [poll, Controller.busy, h]

/-- A pass of the wait after the completion goes on. -/
theorem poll_idle {k : Await} {s : State} (h : s.ctl.inflight = none) : poll k s = resume k s := by
  simp [poll, Controller.busy, h]

/-- Storing a read either fills the next slot and counts it, or finds no slot (R107). -/
theorem storeRead_cases (v : Byte) (s : State) :
    (s.interp.readIdx < s.interp.readTargets.length
      ∧ storeRead v s = .ok { s with interp := { s.interp with
          readTargets := s.interp.readTargets.set s.interp.readIdx v
          readIdx := s.interp.readIdx + 1, readCount := s.interp.readCount + 1 } })
    ∨ (s.interp.readTargets.length ≤ s.interp.readIdx
      ∧ storeRead v s = .error .operandUnderflow) := by
  unfold storeRead writeReadSlot
  by_cases h : s.interp.readIdx < s.interp.readTargets.length
  · exact .inl ⟨h, by simp [h]⟩
  · exact .inr ⟨by omega, by simp [h]⟩

/-- The end of a run finds an operand left over, or returns and discards `S` (R108, R36). -/
theorem endOfRun_cases (s : State) :
    ((s.interp.readIdx ≠ s.interp.readTargets.length
        ∨ s.interp.writeIdx ≠ s.interp.writeValues.length)
      ∧ endOfRun s = raise .operandSurplus s)
    ∨ (s.interp.readIdx = s.interp.readTargets.length
      ∧ s.interp.writeIdx = s.interp.writeValues.length
      ∧ endOfRun s = { s with
          control := .ready, returned := some (.readCount s.interp.readCount), running := false
          interp := Interp.outside s.interp.readTargets }) := by
  unfold endOfRun
  split
  · exact .inl ⟨by assumption, rfl⟩
  · exact .inr ⟨by omega, by omega, rfl⟩

/-! ## The fetch -/

/-- What a fetched move leaves alone: the controller changes only by a fault. -/
theorem rejectedWrite_cases (e : Reject) (v : Word16) (s : State) :
    (∃ r, rejectedWrite e v s = raise r s)
    ∨ (e = .reservedField ∧ writeBitrate v s = .ok (rejectedWrite e v s)) := by
  cases e with
  | unmappedRegister => exact .inl ⟨_, rfl⟩
  | readOnlyRegister => exact .inl ⟨_, rfl⟩
  | reservedField =>
    cases h : writeBitrate v s with
    | error r => exact .inl ⟨r, by simp [rejectedWrite, h]⟩
    | ok t => exact .inr ⟨rfl, by simp [rejectedWrite, h]⟩

end Sys2Proof.Machine
end

