-- ==== Sys2Proof/Laws/Memory.lean ====
section
/-! SUPPORT. The byte sequences of a run (20_memory.md R47 to R49): read after write, the frame of a
write, and that a write keeps a sequence's length and the other two sequences. -/

namespace Sys2Proof.Machine

/-- A slot that can be written is in range, and only that slot's byte changes. -/
theorem writeReadSlot_some {x y : Interp} {i : Nat} {v : Byte} (h : writeReadSlot x i v = some y) :
    i < x.readTargets.length ∧ y = { x with readTargets := x.readTargets.set i v } := by
  unfold writeReadSlot at h
  split at h
  · simp_all
  · cases h

/-- Read after write. -/
theorem writeReadSlot_same {x y : Interp} {i : Nat} {v : Byte} (h : writeReadSlot x i v = some y) :
    y.readTargets[i]? = some v := by
  obtain ⟨hi, rfl⟩ := writeReadSlot_some h
  simp [hi]

/-- A write leaves every other slot alone. -/
theorem writeReadSlot_other {x y : Interp} {i j : Nat} {v : Byte}
    (h : writeReadSlot x i v = some y) (hj : j ≠ i) : y.readTargets[j]? = x.readTargets[j]? := by
  obtain ⟨-, rfl⟩ := writeReadSlot_some h
  simp [List.getElem?_set_ne (Ne.symm hj)]

/-- A write keeps the number of slots, the command string and the write values (R42). -/
theorem writeReadSlot_frame {x y : Interp} {i : Nat} {v : Byte} (h : writeReadSlot x i v = some y) :
    y.readTargets.length = x.readTargets.length ∧ y.cmdStr = x.cmdStr
      ∧ y.writeValues = x.writeValues := by
  obtain ⟨-, rfl⟩ := writeReadSlot_some h
  simp

end Sys2Proof.Machine
end

