-- ==== Sys2Proof/Laws/PerInstr.lean ====
section
/-! SUPPORT. A fact about every instruction as syntax: it reaches the hardware as a write to one of the
two writable registers, as a character, or as a call (20_memory.md R41, R44). -/

namespace Sys2Proof.Laws.Presented

/-- A register presentation goes to CMD or to BITRATE, and to no other offset. -/
def Statement (i : Instr) : Prop :=
  ∀ (off : Offset) (v : Word16), encode i = .write off v → off = 0 ∨ off = 3

/-- The presentation is a register write. -/
def isWrite : Presentation → Bool
  | .write _ _ => true
  | .character _ => false
  | .call _ => false

/-- An instruction that is a character or a call satisfies the statement with nothing to show. -/
theorem of_no_write {i : Instr} (h : isWrite (encode i) = false) : Statement i := by
  intro off v e
  rw [e] at h
  cases h

/-- A write to CMD. -/
theorem of_command {i : Instr} {w : Word16} (h : encode i = .write 0 w) : Statement i := by
  intro off v e
  rw [h] at e
  cases e
  exact .inl rfl

theorem start : Statement .start := of_command rfl
theorem send (b : Byte) : Statement (.send b) := of_command rfl
theorem recvAck : Statement .recvAck := of_command rfl
theorem recvNack : Statement .recvNack := of_command rfl
theorem stop : Statement .stop := of_command rfl
theorem reservedCommandWord (w : Word16) : Statement (.reservedCommandWord w) := of_command rfl
theorem bitrateWrite (p : BitVec 2) (d : Byte) : Statement (.bitrateWrite p d) := by
  intro off v e
  cases e
  exact .inr rfl
theorem startCondition : Statement .startCondition := of_no_write rfl
theorem addressedStart (a : SlaveAddr) (d : Dir) : Statement (.addressedStart a d) := of_no_write rfl
theorem retryingAddressedStart (a : SlaveAddr) (d : Dir) : Statement (.retryingAddressedStart a d) := of_no_write rfl
theorem writeByte (v : Byte) : Statement (.writeByte v) := of_no_write rfl
theorem readByteRequestMore : Statement .readByteRequestMore := of_no_write rfl
theorem readByteLastByte : Statement .readByteLastByte := of_no_write rfl
theorem stopCondition : Statement .stopCondition := of_no_write rfl
theorem computeClockParameters (base target : Nat) : Statement (.computeClockParameters base target) := of_no_write rfl
theorem setup (base target : Nat) : Statement (.setup base target) := of_no_write rfl
theorem run (cmdStr readTargets writeValues : List Byte) : Statement (.run cmdStr readTargets writeValues) := of_no_write rfl
theorem startBrace : Statement .startBrace := of_no_write rfl
theorem startBracket : Statement .startBracket := of_no_write rfl
theorem stopBrace : Statement .stopBrace := of_no_write rfl
theorem stopBracket : Statement .stopBracket := of_no_write rfl
theorem radix16 : Statement .radix16 := of_no_write rfl
theorem radix2 : Statement .radix2 := of_no_write rfl
theorem readMoreLower : Statement .readMoreLower := of_no_write rfl
theorem readMoreUpper : Statement .readMoreUpper := of_no_write rfl
theorem readLastLower : Statement .readLastLower := of_no_write rfl
theorem readLastUpper : Statement .readLastUpper := of_no_write rfl
theorem writeNextLower : Statement .writeNextLower := of_no_write rfl
theorem writeNextUpper : Statement .writeNextUpper := of_no_write rfl
theorem delimitSpace : Statement .delimitSpace := of_no_write rfl
theorem delimitComma : Statement .delimitComma := of_no_write rfl
theorem delay1us : Statement .delay1us := of_no_write rfl
theorem digit0 : Statement .digit0 := of_no_write rfl
theorem digit1 : Statement .digit1 := of_no_write rfl
theorem digit2 : Statement .digit2 := of_no_write rfl
theorem digit3 : Statement .digit3 := of_no_write rfl
theorem digit4 : Statement .digit4 := of_no_write rfl
theorem digit5 : Statement .digit5 := of_no_write rfl
theorem digit6 : Statement .digit6 := of_no_write rfl
theorem digit7 : Statement .digit7 := of_no_write rfl
theorem digit8 : Statement .digit8 := of_no_write rfl
theorem digit9 : Statement .digit9 := of_no_write rfl
theorem digitLowerA : Statement .digitLowerA := of_no_write rfl
theorem digitLowerC : Statement .digitLowerC := of_no_write rfl
theorem digitLowerD : Statement .digitLowerD := of_no_write rfl
theorem digitLowerE : Statement .digitLowerE := of_no_write rfl
theorem digitLowerF : Statement .digitLowerF := of_no_write rfl
theorem digitUpperA : Statement .digitUpperA := of_no_write rfl
theorem digitUpperB : Statement .digitUpperB := of_no_write rfl
theorem digitUpperC : Statement .digitUpperC := of_no_write rfl
theorem digitUpperD : Statement .digitUpperD := of_no_write rfl
theorem digitUpperE : Statement .digitUpperE := of_no_write rfl
theorem digitUpperF : Statement .digitUpperF := of_no_write rfl
theorem ignore (b : Byte) : Statement (.ignore b) := of_no_write rfl

end Sys2Proof.Laws.Presented
end

