-- ==== Sys2Proof/Laws/Step.lean ====
section
/-! SUPPORT. What a step can do to the controller, said once: each invariant and each whole-machine rule
about the controller is a short case analysis of these. -/

namespace Sys2Proof.Machine

/-- Every way in which the host, by any instruction or move, changes the controller. -/
inductive HostMove (c : Controller) : Controller → Prop where
  | same : HostMove c c
  | raised (r : Fault) : HostMove c { c with fault := some (c.fault.getD r) }
  | accepted (cmd : Command) (hc : c.configured = true) (hi : c.inflight = none)
      (hm : meaningful c cmd = true) : HostMove c (accept cmd c)
  | bitrate (p : BitVec 2) (d : Byte) (hi : c.inflight = none) :
      HostMove c { c with prescalerExponent := p, divisor := d, configured := true }
  | delayed : HostMove c { c with trace := c.trace ++ [.delay1us] }

/-! ## Shared operations -/

theorem settle_issue_move (cmd : Command) (s : State) :
    HostMove s.ctl (settle s (issue cmd s)).ctl := by
  cases h : issue cmd s with
  | error r => exact .raised r
  | ok t =>
    obtain ⟨hc, hi, hm, rfl⟩ := issue_ok h
    exact .accepted cmd hc hi hm

theorem issueAndWait_move (k : Await) (cmd : Command) (s : State) :
    HostMove s.ctl (issueAndWait k cmd s).ctl := by
  rcases issueAndWait_cases k cmd s with ⟨hc, hi, hm, e⟩ | ⟨r, e⟩
  · rw [e]; exact .accepted cmd hc hi hm
  · rw [e]; exact .raised r

theorem settle_writeBitrate_move (v : Word16) (s : State) :
    HostMove s.ctl (settle s (writeBitrate v s)).ctl := by
  cases h : writeBitrate v s with
  | error r => exact .raised r
  | ok t =>
    obtain ⟨hi, -, rfl⟩ := writeBitrate_ok h
    exact .bitrate _ _ hi

theorem setup_move (base target : Nat) (s : State) : HostMove s.ctl (setup base target s).ctl := by
  unfold setup
  split
  · rename_i p d _
    cases h : writeBitrate (brword p d) s with
    | error r => exact .raised r
    | ok t =>
      obtain ⟨hi, -, rfl⟩ := writeBitrate_ok h
      exact .bitrate _ _ hi
  · exact .same

theorem readToken_move (cmd : Command) (s : State) : HostMove s.ctl (readToken cmd s).ctl := by
  unfold readToken
  split
  · exact issueAndWait_move _ _ _
  · exact .raised _

theorem flushToken_move (s : State) : HostMove s.ctl (flushToken s).ctl := by
  unfold flushToken
  split
  · exact issueAndWait_move _ _ _
  · exact .same

theorem writeToken_move (s : State) : HostMove s.ctl (writeToken s).ctl := by
  unfold writeToken
  split
  · exact .raised _
  · rename_i v _
    exact flushToken_move { s with interp := { s.interp with
      pending := true, acc := v.toNat, writeIdx := s.interp.writeIdx + 1 } }

theorem digitToken_move (dv : Nat) (s : State) : HostMove s.ctl (digitToken dv s).ctl := by
  unfold digitToken
  split <;> exact .same

theorem endOfRun_move (s : State) : HostMove s.ctl (endOfRun s).ctl := by
  unfold endOfRun
  split
  · exact .raised _
  · exact .same

/-- The end of a primitive leaves the controller alone, or raises the fault of its caller's slot. -/
theorem finish_move (caller : Caller) (v : ReturnValue) {after : State → Except Fault State}
    (s : State) (h : ∀ t, after s = .ok t → t.ctl = s.ctl) :
    HostMove s.ctl (finish caller v after s).ctl := by
  cases caller with
  | host => exact .same
  | interpreter =>
    cases e : after s with
    | error r => simp only [finish, e]; exact .raised r
    | ok t =>
      have : (finish .interpreter v after s).ctl = s.ctl := by
        simp [finish, e, Except.map, h t e]
      rw [this]; exact .same

theorem storeRead_ctl {v : Byte} {s t : State} (h : storeRead v s = .ok t) : t.ctl = s.ctl := by
  rcases storeRead_cases v s with ⟨-, e⟩ | ⟨-, e⟩ <;> rw [e] at h <;> cases h
  rfl

theorem resume_move (k : Await) (s : State) : HostMove s.ctl (resume k s).ctl := by
  have hok : ∀ v, HostMove s.ctl (finish k.caller v .ok s).ctl := fun v =>
    finish_move _ _ _ fun t e => by cases e; rfl
  unfold resume
  split
  · exact hok _
  · exact hok _
  · split
    · exact issueAndWait_move _ _ _
    · exact hok _
  · exact hok _
  · split <;> exact issueAndWait_move _ _ _
  · split
    · exact hok _
    · exact issueAndWait_move _ _ _
  · exact issueAndWait_move _ _ _
  · exact finish_move _ _ _ fun t e => by cases e; rfl
  · split
    · exact finish_move _ _ _ fun t e => storeRead_ctl e
    · exact .raised _
  · exact hok _

theorem poll_move (k : Await) (s : State) : HostMove s.ctl (poll k s).ctl := by
  unfold poll
  split
  · exact resume_move k s
  · exact .same

/-! ## Instructions, moves and steps -/

/-- Every instruction changes the controller by one of the five moves. -/
theorem exec_move {i : Instr} {s t : State} (h : exec i s = .next t) : HostMove s.ctl t.ctl := by
  cases i
  case bitrateWrite => obtain ⟨-, rfl⟩ := act_next h; exact settle_writeBitrate_move _ _
  case setup => obtain ⟨-, rfl⟩ := act_next h; exact setup_move _ _ _
  all_goals
    obtain ⟨-, rfl⟩ := act_next h
    first
      | exact settle_issue_move _ _
      | exact issueAndWait_move _ _ _
      | exact readToken_move _ _
      | exact writeToken_move _
      | exact flushToken_move _
      | exact digitToken_move _ _
      | exact .raised _
      | exact .delayed
      | exact .same

/-- The controller part of a fetched move. -/
def FetchMoves (c : Controller) : Fetched → Prop
  | .instr _ t => t.ctl = c
  | .other t => HostMove c t.ctl

theorem perform_move (a : Action) (s : State) : FetchMoves s.ctl (perform a s) := by
  cases a with
  | awaitComplete => exact .same
  | call f => rfl
  | regRead off =>
    simp only [perform]
    split
    · exact .same
    · exact .raised _
  | regWrite off v =>
    simp only [perform]
    split
    · rfl
    · rename_i e _
      cases e with
      | unmappedRegister => exact .raised _
      | readOnlyRegister => exact .raised _
      | reservedField => exact settle_writeBitrate_move v s

/-- A fetched instruction runs on the same controller; any other move is one of the five. -/
theorem fetch_move (s : State) : FetchMoves s.ctl (fetch s) := by
  unfold fetch
  split
  · split
    · rfl
    · exact endOfRun_move s
  · split
    · exact .same
    · rename_i a rest _
      exact perform_move a { s with program := rest }

theorem hostStep_move {s t : State} (h : hostStep s = .next t) : HostMove s.ctl t.ctl := by
  unfold hostStep at h
  split at h
  · cases h; exact poll_move _ _
  · have hf := fetch_move s
    split at h
    · rename_i i u e
      rw [e] at hf
      have hm := exec_move h
      rwa [show u.ctl = s.ctl from hf] at hm
    · rename_i u e
      rw [e] at hf
      cases h; exact hf

/-- A step is the completion of the command in flight, or a move of the host. -/
theorem step_cases {s t : State} (h : step s = .next t) :
    s.ctl.fault = none
      ∧ ((∃ cmd, s.ctl.inflight = some cmd ∧ s.turn = .environment
            ∧ t = complete cmd (Config.draw s.tick) (advance s))
        ∨ ((s.ctl.inflight = none ∨ s.turn = .host) ∧ hostStep (advance s) = .next t)) := by
  unfold step at h
  split at h
  · cases h
  · refine ⟨by assumption, ?_⟩
    split at h
    · rename_i cmd hi ht
      exact .inl ⟨cmd, hi, ht, by cases h; rfl⟩
    · rename_i cmd hi ht
      exact .inr ⟨.inr ht, h⟩
    · rename_i hi
      exact .inr ⟨.inl hi, h⟩

end Sys2Proof.Machine
end

