-- ==== Sys2Proof/Tests/Slice0.lean ====
section
/-! SUPPORT. Small tests of the model, each against values written out from the spec (30_encoding.md,
95_test_vectors.md), and for every statement of Certificates/Slice0/Obligations.lean that has hypotheses
a witness that meets them, clause by clause. -/

namespace Sys2Proof.Tests

open Sys2Proof.Machine

/-! ## Small states -/

/-- Reset, then configured: the launch state of 95_test_vectors.md with bit-rate fields of no matter. -/
def idle : State := { State.reset with ctl := { State.reset.ctl with configured := true } }

/-- `idle` in another session state. -/
def session (p : Phase) (pend : Bool) (dir : Option Dir) (st : Status) : State :=
  { idle with ctl := { idle.ctl with phase := p, addrPending := pend, direction := dir, status := st } }

def started : State := session .started true none .start
def addressedW : State := session .addressed false (some .write) .mtSlaAck
def addressedR : State := session .addressed false (some .read) .mrSlaAck
def transferringR : State := session .transferring false (some .read) .mrDataAck

/-- A state with a command accepted. -/
def inFlight (cmd : Command) (s : State) : State := { s with ctl := accept cmd s.ctl }

/-- A state whose host waits at a point. -/
def waiting (p : Point) (k : Caller) (s : State) : State := { s with control := .polling ⟨p, k⟩ }

/-- A state in a run of a string with operands. -/
def inRun (str reads writes : List Byte) (s : State) : State :=
  { s with running := true, interp := Interp.initial str reads writes }

/-- A state whose host program is one action. -/
def withAction (a : Action) (s : State) : State := { s with program := [a] }

/-- A state that holds a fault. -/
def faulted : State := raise .unconfigured State.reset

def ackDraw : Draw := ⟨.owned, .ack, 0x5A⟩
def nackDraw : Draw := ⟨.owned, .nack, 0x00⟩
def lostDraw : Draw := ⟨.arbLost, .nack, 0xFF⟩

/-! ## Well-formedness: each check refuses an ill-formed term -/

theorem test_reserved_row_refuses_command_words :
    (Instr.reservedCommandWord 0x0100).wellFormed = false
    ∧ (Instr.reservedCommandWord 0x0200).wellFormed = false
    ∧ (Instr.reservedCommandWord 0x02FF).wellFormed = false
    ∧ (Instr.reservedCommandWord 0x0500).wellFormed = false := by decide

theorem test_ignore_row_refuses_named_characters :
    (Instr.ignore 0x5B).wellFormed = false ∧ (Instr.ignore 0x62).wellFormed = false
    ∧ (Instr.ignore 0x30).wellFormed = false ∧ (Instr.ignore 0x46).wellFormed = false := by decide

theorem test_well_formed_accepts :
    (Instr.reservedCommandWord 0x0480).WellFormed ∧ (Instr.ignore 0x58).WellFormed
    ∧ (Instr.send 0xFF).WellFormed := by decide

/-! ## Decoding, by words written out from the spec -/

/-- V-ENC and R60, the words of CMD. -/
theorem test_decode_command_words :
    decode (.write 0 0b0000000100000000) = .ok .start
    ∧ decode (.write 0 0b0000001000000000) = .ok (.send 0x00)
    ∧ decode (.write 0 0b0000001011111111) = .ok (.send 0xFF)
    ∧ decode (.write 0 0b0000001001010010) = .ok (.send 0x52)
    ∧ decode (.write 0 0b0000001100000000) = .ok .recvAck
    ∧ decode (.write 0 0b0000010000000000) = .ok .recvNack
    ∧ decode (.write 0 0b0000010100000000) = .ok .stop := ⟨rfl, rfl, rfl, rfl, rfl, rfl, rfl⟩

/-- V-ENC, the reserved words. -/
theorem test_decode_reserved_command_words :
    [0x0000, 0x0600, 0x0700, 0x0101, 0x0301, 0x0480, 0x05FF, 0x0900, 0x8100, 0xFA52].all
      (fun w => decide (decodeCommand w = .reservedCommandWord w)) = true := by decide

/-- R65 and V-CLK: `p` in bits 9 and 8, `d` below. -/
theorem test_decode_bitrate_words :
    decode (.write 3 0b0000001001100100) = .ok (.bitrateWrite 2 100)
    ∧ decode (.write 3 0b0000000101100010) = .ok (.bitrateWrite 1 98)
    ∧ decode (.write 3 0b0000001111111010) = .ok (.bitrateWrite 3 250)
    ∧ decode (.write 3 0x0448) = .error .reservedField := ⟨rfl, rfl, rfl, rfl⟩

/-- R44: the other offsets take no instruction. -/
theorem test_decode_refuses_other_offsets :
    decode (.write 1 0x0100) = .error .readOnlyRegister
    ∧ decode (.write 2 0x0100) = .error .readOnlyRegister
    ∧ decode (.write 4 0x0100) = .error .readOnlyRegister
    ∧ decode (.write 5 0x0100) = .error .unmappedRegister
    ∧ decode (.write 7 0) = .error .unmappedRegister := ⟨rfl, rfl, rfl, rfl, rfl⟩

/-- R67, the fifteen tokens that are no digits. -/
theorem test_decode_tokens :
    [0x7B, 0x5B, 0x7D, 0x5D, 0x78, 0x62, 0x72, 0x52, 0x73, 0x53, 0x77, 0x57, 0x20, 0x2C, 0x26].map
      decodeToken
    = [.startBrace, .startBracket, .stopBrace, .stopBracket, .radix16, .radix2, .readMoreLower,
       .readMoreUpper, .readLastLower, .readLastUpper, .writeNextLower, .writeNextUpper,
       .delimitSpace, .delimitComma, .delay1us] := rfl

/-- R67 and R69, the digits: no digit is spelled `b` (R68). -/
theorem test_decode_digits :
    [0x30, 0x31, 0x32, 0x33, 0x34, 0x35, 0x36, 0x37, 0x38, 0x39].map decodeToken
    = [.digit0, .digit1, .digit2, .digit3, .digit4, .digit5, .digit6, .digit7, .digit8, .digit9]
    ∧ [0x61, 0x63, 0x64, 0x65, 0x66].map decodeToken
    = [.digitLowerA, .digitLowerC, .digitLowerD, .digitLowerE, .digitLowerF]
    ∧ [0x41, 0x42, 0x43, 0x44, 0x45, 0x46].map decodeToken
    = [.digitUpperA, .digitUpperB, .digitUpperC, .digitUpperD, .digitUpperE, .digitUpperF] :=
  ⟨rfl, rfl, rfl⟩

/-- R125: `X`, `z`, a byte outside ASCII and the byte 0 are ignored. -/
theorem test_decode_ignored :
    [0x58, 0x7A, 0xFF, 0x00].map decodeToken
    = [.ignore 0x58, .ignore 0x7A, .ignore 0xFF, .ignore 0x00] := rfl

theorem test_decode_calls :
    decode (.call .startCondition) = .ok .startCondition
    ∧ decode (.call (.addressedStart 0x29 .read)) = .ok (.addressedStart 0x29 .read)
    ∧ decode (.call (.retryingAddressedStart 0x7F .write)) = .ok (.retryingAddressedStart 0x7F .write)
    ∧ decode (.call (.writeByte 0x80)) = .ok (.writeByte 0x80)
    ∧ decode (.call .readByteRequestMore) = .ok .readByteRequestMore
    ∧ decode (.call .readByteLastByte) = .ok .readByteLastByte
    ∧ decode (.call .stopCondition) = .ok .stopCondition
    ∧ decode (.call (.computeClockParameters 16000000 100000))
        = .ok (.computeClockParameters 16000000 100000)
    ∧ decode (.call (.setup 16000000 100000)) = .ok (.setup 16000000 100000)
    ∧ decode (.call (.run [0x26] [0] [7])) = .ok (.run [0x26] [0] [7]) :=
  ⟨rfl, rfl, rfl, rfl, rfl, rfl, rfl, rfl, rfl, rfl⟩

/-- T9: the address bytes. -/
theorem test_address_bytes :
    sla 0x29 .write = 0x52 ∧ sla 0x29 .read = 0x53 ∧ sla 0x39 .write = 0x72 ∧ sla 0x39 .read = 0x73
    ∧ sla 0x00 .write = 0x00 ∧ sla 0x7F .read = 0xFF := ⟨rfl, rfl, rfl, rfl, rfl, rfl⟩

/-- Rows of opcode_table.json in its own numbering, the padded digit rows among them (log entry 11). -/
theorem test_table_words :
    decodeTableWord 16 0x0100 = some .start ∧ decodeTableWord 16 0x02A5 = some (.send 0xA5)
    ∧ decodeTableWord 16 0x0500 = some .stop ∧ decodeTableWord 16 0x0264 = some (.send 0x64)
    ∧ decodeTableWord 16 0x0000 = some (.bitrateWrite 0 0)
    ∧ decodeTableWord 16 0x0348 = some (.bitrateWrite 3 0x48)
    ∧ decodeTableWord 16 0x0600 = some (.reservedCommandWord 0x0600)
    ∧ decodeTableWord 8 0x5B = some .startBracket ∧ decodeTableWord 8 0x00 = some (.ignore 0)
    ∧ decodeTableWord 24 0x000038 = some .digit8 ∧ decodeTableWord 24 0x000239 = some .digit9
    ∧ decodeTableWord 16 0x0061 = some .digitLowerA ∧ decodeTableWord 16 0x8066 = some .digitLowerF
    ∧ decodeTableWord 24 0x000040 = none :=
  ⟨rfl, rfl, rfl, rfl, rfl, rfl, rfl, rfl, rfl, rfl, rfl, rfl, rfl, rfl⟩

/-- What `withFetchWord` places is the first instruction that `step` runs. -/
theorem test_fetch_word_runs :
    step (State.reset.withFetchWord 16 0x0100) = exec .start (advance State.reset)
    ∧ step (State.reset.withFetchWord 16 0x0048)
        = exec (.bitrateWrite 0 0x48) (advance State.reset)
    ∧ step (State.reset.withFetchWord 8 0x26)
        = exec .delay1us (advance (inRun [0x26] [] [] State.reset)) := ⟨rfl, rfl, rfl⟩

/-! ## The Clock Configurator (V-CLK) -/

theorem test_clock_termwise :
    computeClockParameters .termwise 16000000 100000 = .ok 0 72
    ∧ computeClockParameters .termwise 16000000 1000000 = .ok 0 0
    ∧ computeClockParameters .termwise 8000000 10000 = .ok 1 98
    ∧ computeClockParameters .termwise 16000000 5000 = .ok 2 100
    ∧ computeClockParameters .termwise 16000000 500 = .ok 3 250
    ∧ computeClockParameters .termwise 16000000 250 = .unreachableBitrate
    ∧ computeClockParameters .termwise 15000000 1000000 = .unreachableBitrate
    ∧ computeClockParameters .termwise 16000000 0 = .unreachableBitrate
    ∧ computeClockParameters .termwise 0 100000 = .unreachableBitrate := by decide

theorem test_clock_exact :
    computeClockParameters .exact 16000000 5000 = .ok 2 99
    ∧ computeClockParameters .exact 16000000 500 = .ok 3 249
    ∧ computeClockParameters .exact 15000000 1000000 = .ok 0 0
    ∧ computeClockParameters .exact 16000000 2000000 = .unreachableBitrate := by decide +kernel

/-- The column "rate" of V-CLK. -/
theorem test_bitrate_formula :
    bitrate 16000000 0 72 = 100000 ∧ bitrate 16000000 1 64 = 30303
    ∧ bitrate 16000000 2 100 = 4975 ∧ bitrate 16000000 3 250 = 499 := by decide

/-- `setup(16000000, 100000)` from reset: BITRATE reads 0x0048, FLAGS 0x0003. -/
theorem test_setup_writes : ∃ t, exec (.setup 16000000 100000) State.reset = .next t
    ∧ regRead defaultStatusCode 3 t.ctl = .ok 0x0048 ∧ regRead defaultStatusCode 4 t.ctl = .ok 0x0003
    ∧ t.returned = some (.setup true) := ⟨_, rfl, rfl, rfl, rfl⟩

/-- `setup(16000000, 2000000)` from reset: FLAGS still 0x0001 and BITRATE unwritten. -/
theorem test_setup_fails : ∃ t, exec (.setup 16000000 2000000) State.reset = .next t
    ∧ regRead defaultStatusCode 3 t.ctl = .error .unwrittenRegister ∧ regRead defaultStatusCode 4 t.ctl = .ok 0x0001
    ∧ t.returned = some (.setup false) := ⟨_, rfl, rfl, rfl, rfl⟩

theorem test_bitrate_write : ∃ t, exec (.bitrateWrite 2 100) State.reset = .next t
    ∧ regRead defaultStatusCode 3 t.ctl = .ok 0x0264 := ⟨_, rfl, rfl⟩

theorem test_clock_call : ∃ t, exec (.computeClockParameters 16000000 500) State.reset = .next t
    ∧ t.returned = some (.clock (.ok 3 250)) ∧ t.ctl = State.reset.ctl := ⟨_, rfl, rfl, rfl⟩

/-! ## Registers (V-REG) -/

theorem test_reads_at_reset :
    regRead defaultStatusCode 4 State.reset.ctl = .ok 0x0001 ∧ regRead defaultStatusCode 1 State.reset.ctl = .ok 0x00F8
    ∧ regRead defaultStatusCode 0 State.reset.ctl = .ok 0x0000
    ∧ regRead defaultStatusCode 2 State.reset.ctl = .error .unwrittenRegister
    ∧ regRead defaultStatusCode 3 State.reset.ctl = .error .unwrittenRegister
    ∧ regRead defaultStatusCode 6 State.reset.ctl = .error .unmappedRegister := ⟨rfl, rfl, rfl, rfl, rfl, rfl⟩

/-- R66: the default codes, and another table that R66 allows. -/
theorem test_status_codes :
    allStatuses.map defaultStatusCode
      = [0x08, 0x10, 0x18, 0x20, 0x28, 0x30, 0x38, 0x40, 0x48, 0x50, 0x58, 0xF8]
    ∧ distinctCodes defaultStatusCode = true
    ∧ distinctCodes (fun st => defaultStatusCode st + 1) = true
    ∧ distinctCodes (fun _ => 0) = false
    ∧ statusName defaultStatusCode 0x18 = some .mtSlaAck ∧ statusName defaultStatusCode 0x19 = none
    ∧ regRead (fun st => defaultStatusCode st + 1) 1 State.reset.ctl = .ok 0x00F9 := by
  refine ⟨?_, ?_, ?_, ?_, ?_, ?_, rfl⟩ <;> decide

/-- After START is issued: FLAGS reads 0x0002, and STATUS and DATA fault. -/
theorem test_reads_while_busy :
    regRead defaultStatusCode 4 (inFlight .start idle).ctl = .ok 0x0002
    ∧ regRead defaultStatusCode 1 (inFlight .start idle).ctl = .error .readWhileBusy
    ∧ regRead defaultStatusCode 2 (inFlight (.send 0x52) started).ctl = .error .readWhileBusy := ⟨rfl, rfl, rfl⟩

/-- START Owned, SEND 0x52 acknowledged: DATA 0x0052, STATUS 0x0018. -/
theorem test_reads_after_send :
    regRead defaultStatusCode 2 (complete (.send 0x52) ackDraw (inFlight (.send 0x52) started)).ctl = .ok 0x0052
    ∧ regRead defaultStatusCode 1 (complete (.send 0x52) ackDraw (inFlight (.send 0x52) started)).ctl = .ok 0x0018 :=
  ⟨rfl, rfl⟩

/-- The step of a rejected write, and of a reserved command word: decode comes before Unconfigured. -/
theorem test_write_faults :
    step (withAction (.regWrite 7 0) State.reset)
      = .next (raise .unmappedRegister (advance State.reset))
    ∧ step (withAction (.regWrite 1 0x0100) State.reset)
      = .next (raise .readOnlyWrite (advance State.reset))
    ∧ step (withAction (.regWrite 0 0x0100) State.reset)
      = .next (raise .unconfigured (advance State.reset))
    ∧ step (withAction (.regWrite 0 0x0600) State.reset)
      = .next (raise .reservedCommand (advance State.reset))
    ∧ step (withAction (.regWrite 3 0x0448) State.reset)
      = .next (raise .reservedField (advance State.reset))
    ∧ step (withAction (.regWrite 3 0x0048) (inFlight .start idle))
      = .next (raise .writeWhileBusy (advance (inFlight .start idle)))
    ∧ step (withAction (.regWrite 0 0x0500) (inFlight .start idle))
      = .next (raise .commandWhileBusy (advance (inFlight .start idle))) :=
  ⟨rfl, rfl, rfl, rfl, rfl, rfl, rfl⟩

/-! ## Commands (V-CMD) -/

theorem test_start_completions :
    SessionIs (complete .start ackDraw idle).ctl .started true none .start
    ∧ SessionIs (complete .start ackDraw started).ctl .started true none .repeatedStart
    ∧ SessionIs (complete .start lostDraw transferringR).ctl .idle false none .arbLost := by decide

theorem test_send_completions :
    SessionIs (complete (.send 0x52) ackDraw started).ctl .addressed false (some .write) .mtSlaAck
    ∧ SessionIs (complete (.send 0xFF) ackDraw started).ctl .addressed false (some .read) .mrSlaAck
    ∧ SessionIs (complete (.send 0x53) nackDraw started).ctl .started false none .mrSlaNack
    ∧ SessionIs (complete (.send 0x80) nackDraw addressedW).ctl .transferring false (some .write)
        .mtDataNack := by decide

theorem test_receive_and_stop_completions :
    SessionIs (complete .recvAck ackDraw addressedR).ctl .transferring false (some .read) .mrDataAck
    ∧ (complete .recvNack ackDraw addressedR).ctl.data = some 0x5A
    ∧ SessionIs (complete .stop ackDraw started).ctl .stopped false none .noInfo
    ∧ (complete .stop ackDraw idle).ctl.trace = [.stop] := by decide

/-- The ProtocolMisuse rows. -/
theorem test_misuse :
    exec (.send 0x52) idle = .next (raise .protocolMisuse idle)
    ∧ exec .recvAck (session .stopped false none .noInfo)
        = .next (raise .protocolMisuse (session .stopped false none .noInfo))
    ∧ exec .recvNack started = .next (raise .protocolMisuse started)
    ∧ exec (.send 0x80) (session .started false none .mtSlaNack)
        = .next (raise .protocolMisuse (session .started false none .mtSlaNack))
    ∧ exec (.send 0x10) addressedR = .next (raise .protocolMisuse addressedR)
    ∧ exec .recvAck addressedW = .next (raise .protocolMisuse addressedW) :=
  ⟨rfl, rfl, rfl, rfl, rfl, rfl⟩

/-- DATA is set when a SEND is issued, before it completes. -/
theorem test_issue : ∃ t, exec (.send 0x52) started = .next t
    ∧ t.ctl.data = some 0x52 ∧ t.ctl.inflight = some (.send 0x52) ∧ t.ctl.phase = .started :=
  ⟨_, rfl, rfl, rfl, rfl⟩

/-! ## Primitives (V-DRV), one answer at a time -/

/-- `writeByte(0x52)` straight after a start returns false although acknowledged. -/
theorem test_write_byte_as_address : ∃ t, exec (.writeByte 0x52) started = .next t
    ∧ (serve ackDraw t).returned = some (.bool false)
    ∧ (serve ackDraw t).ctl.trace = [.send 0x52 .mtSlaAck] := ⟨_, rfl, rfl, rfl⟩

theorem test_addressed_start : ∃ t, exec (.addressedStart 0x29 .read) idle = .next t
    ∧ (serve ackDraw t).ctl.inflight = some (.send 0x53)
    ∧ (serveAll [ackDraw, nackDraw] t).returned = some (.bool false)
    ∧ (serveAll [ackDraw, nackDraw] t).ctl.trace = [.start .start, .send 0x53 .mrSlaNack] :=
  ⟨_, rfl, rfl, rfl, rfl⟩

theorem test_read_byte : ∃ t, exec .readByteLastByte addressedR = .next t
    ∧ (serve ackDraw t).returned = some (.byte 0x5A)
    ∧ (serve ackDraw t).ctl.trace = [.recv .lastByte 0x5A .mrDataNack] := ⟨_, rfl, rfl, rfl⟩

theorem test_start_condition_lost : ∃ t, exec .startCondition idle = .next t
    ∧ (serve lostDraw t).returned = some (.bool false) ∧ (serve lostDraw t).ctl.phase = .idle :=
  ⟨_, rfl, rfl, rfl⟩

/-- An arbitration loss restarts with no stop; a no-acknowledge stops first. -/
theorem test_retry : ∃ t, exec (.retryingAddressedStart 0x29 .write) idle = .next t
    ∧ (serve lostDraw t).ctl.inflight = some .start
    ∧ (serveAll [ackDraw, nackDraw] t).ctl.inflight = some .stop
    ∧ (serveAll [ackDraw, ackDraw] t).returned = some .unit := ⟨_, rfl, rfl, rfl, rfl⟩

/-! ## Tokens (V-INT, T4), one character at a time -/

/-- `12x3`: 12 under radix 10, then `3` under 16 gives 195. -/
theorem test_digit_after_radix : ∃ t,
    exec .digit3 { idle with interp := { idle.interp with acc := 12, radix := .sixteen } } = .next t
    ∧ t.interp.acc = 195 ∧ t.interp.pending = true := ⟨_, rfl, rfl, rfl⟩

/-- `2` under radix 2 and `a` under radix 10 are ignored; `B` is hex eleven. -/
theorem test_digits_by_radix :
    (∃ t, exec .digit2 { idle with interp := { idle.interp with radix := .two } } = .next t
      ∧ t.interp.acc = 0 ∧ t.interp.pending = false ∧ t.interp.cursor = 1)
    ∧ (∃ t, exec .digitLowerA idle = .next t ∧ t.interp.acc = 0 ∧ t.interp.pending = false)
    ∧ ∃ t, exec .digitUpperB { idle with interp := { idle.interp with radix := .sixteen } } = .next t
      ∧ t.interp.acc = 11 := ⟨⟨_, rfl, rfl, rfl, rfl⟩, ⟨_, rfl, rfl, rfl⟩, ⟨_, rfl, rfl⟩⟩

/-- `0x1FF` writes 0xFF. -/
theorem test_delimiter_writes_modulo_256 : ∃ t,
    exec .delimitSpace { addressedW with interp := { idle.interp with acc := 511, pending := true } }
      = .next t
    ∧ t.ctl.inflight = some (.send 0xFF)
    ∧ (serve ackDraw t).interp.acc = 0 ∧ (serve ackDraw t).interp.cursor = 1 :=
  ⟨_, rfl, rfl, rfl, rfl⟩

/-- `5w` with the value 7: the pending 5 is replaced. -/
theorem test_write_token : ∃ t,
    exec .writeNextLower { addressedW with interp :=
      { Interp.initial [] [] [7] with acc := 5, pending := true } } = .next t
    ∧ t.ctl.inflight = some (.send 7) ∧ t.interp.writeIdx = 1 := ⟨_, rfl, rfl, rfl⟩

/-- `r` reads into the next slot; the literal is not flushed. -/
theorem test_read_token : ∃ t,
    exec .readMoreLower (inRun [0x72] [0, 0] [] addressedR) = .next t
    ∧ (serve ackDraw t).interp.readTargets = [0x5A, 0] ∧ (serve ackDraw t).interp.readCount = 1 :=
  ⟨_, rfl, rfl, rfl⟩

/-- `[0x52 7` ends with the 7 pending: the run returns and nothing is written. -/
theorem test_end_of_run : ∃ t,
    step { inRun [] [] [] addressedW with interp := { idle.interp with acc := 7, pending := true } }
      = .next t
    ∧ t.returned = some (.readCount 0) ∧ t.ctl.inflight = none ∧ t.running = false :=
  ⟨_, rfl, rfl, rfl, rfl⟩

/-- R36: after a run only the caller's slots are left of `S`, and the next character that is presented
starts a run afresh. -/
theorem test_run_discards_its_record : ∃ t,
    step { inRun [] [] [] idle with interp :=
      { cmdStr := [0x73], cursor := 1, radix := .sixteen, acc := 7, pending := true, readCount := 1,
        readIdx := 1, writeIdx := 1, readTargets := [0x5A], writeValues := [9] } } = .next t
    ∧ t.interp = Interp.initial [] [0x5A] []
    ∧ (present (.character 0x26) t).interp = Interp.initial [0x26] [0x5A] [] :=
  ⟨_, rfl, rfl, rfl⟩

/-- Program P6: after the address NACK the second space faults, and `w` would fault with its value
pending and counted. -/
theorem test_token_misuse :
    (∃ t, exec .delimitSpace { session .started false none .mtSlaNack with interp :=
        { idle.interp with acc := 0x80, pending := true } } = .next t
      ∧ t.ctl.fault = some .protocolMisuse ∧ t.ctl.inflight = none ∧ t.interp.cursor = 0
      ∧ t.interp.pending = true ∧ t.interp.acc = 0x80)
    ∧ ∃ t, exec .writeNextLower (inRun [0x77] [] [9] (session .started false none .mtSlaNack)) = .next t
      ∧ t.ctl.fault = some .protocolMisuse ∧ t.interp.cursor = 0 ∧ t.interp.writeIdx = 1
      ∧ t.interp.acc = 9 ∧ t.interp.pending = true :=
  ⟨⟨_, rfl, rfl, rfl, rfl, rfl, rfl⟩, ⟨_, rfl, rfl, rfl, rfl, rfl, rfl⟩⟩

theorem test_delay_token : ∃ t, exec .delay1us started = .next t ∧ t.ctl.trace = [.delay1us] :=
  ⟨_, rfl, rfl⟩

/-! ## Witnesses: registers and encodings -/

theorem test_witness_RegisterReadCases :
    (5 ≤ (5 : Offset).toNat ∧ 5 ≤ (7 : Offset).toNat)
    ∧ (inFlight .start idle).ctl.inflight ≠ none
    ∧ (idle.ctl.inflight = none ∧ idle.ctl.data = none ∧ idle.ctl.configured = true)
    ∧ State.reset.ctl.configured = false
    ∧ (complete .recvAck ackDraw addressedR).ctl.data = some 0x5A
    ∧ (HostMoves (withAction (.regRead 4) idle) ∧ (withAction (.regRead 4) idle).running = false
        ∧ (withAction (.regRead 4) idle).program = [.regRead 4]
        ∧ regRead statusCode 4 idle.ctl = .ok 3)
    ∧ regRead statusCode 7 idle.ctl = .error .unmappedRegister :=
  ⟨by decide, by decide, by decide, rfl, rfl, ⟨by decide, rfl, rfl, rfl⟩, rfl⟩

/-- One state each for the four clauses, at the ends of each range of offsets. -/
theorem test_witness_RegisterWriteCases :
    HostMoves (withAction (.regWrite 5 0) idle) ∧ HostMoves (withAction (.regWrite 7 0) idle)
    ∧ HostMoves (withAction (.regWrite 1 0) idle) ∧ HostMoves (withAction (.regWrite 4 0) idle)
    ∧ HostMoves (withAction (.regWrite 0 0x0100) idle)
    ∧ HostMoves (withAction (.regWrite 3 0x0264) idle)
    ∧ (withAction (.regWrite 3 0x0264) idle).running = false
    ∧ (withAction (.regWrite 3 0x0264) idle).program = .regWrite 3 0x0264 :: [] := by decide

theorem test_witness_BitrateWordLayout :
    State.reset.ctl.inflight = none ∧ (0x0400 : Word16).extractLsb' 10 6 ≠ 0
    ∧ (0x8000 : Word16).extractLsb' 10 6 ≠ 0 := by decide

theorem test_witness_BitrateWriteEffect :
    (inFlight .stop idle).ctl.inflight ≠ none ∧ idle.ctl.inflight = none
    ∧ (0x0400 : Word16).extractLsb' 10 6 ≠ 0 ∧ (0x03FF : Word16).extractLsb' 10 6 = 0
    ∧ idle.ctl.fault = none := by decide

theorem test_witness_CommandWordDecoding :
    (0x0100 : Word16) &&& 0xFFFF = 0x0100 ∧ (0x02FF : Word16) &&& 0xFF00 = 0x0200
    ∧ (0x0300 : Word16) &&& 0xFFFF = 0x0300 ∧ (0x0400 : Word16) &&& 0xFFFF = 0x0400
    ∧ (0x0500 : Word16) &&& 0xFFFF = 0x0500
    ∧ (0x0900 : Word16).extractLsb' 11 5 ≠ 0 ∧ (0x00FF : Word16).extractLsb' 8 3 = 0
    ∧ (0x0600 : Word16).extractLsb' 8 3 = 6 ∧ (0xFFFF : Word16).extractLsb' 8 3 = 7
    ∧ ((0x0101 : Word16).extractLsb' 8 3 ≠ 2 ∧ (0x0101 : Word16).extractLsb' 0 8 ≠ 0)
    ∧ idle.ctl.fault = none := by decide

theorem test_witness_DecodeOfEncodeIsTheInstruction :
    (Instr.reservedCommandWord 0xFFFF).WellFormed ∧ (Instr.ignore 0xFF).WellFormed
    ∧ (Instr.bitrateWrite 3 0xFF).WellFormed := by decide

theorem test_witness_EncodeOfDecodeIsThePresentation :
    decode (.write 3 0x03FF) = .ok (.bitrateWrite 3 0xFF)
    ∧ decode (.write 0 0xFFFF) = .ok (.reservedCommandWord 0xFFFF)
    ∧ decode (.character 0x7B) = .ok .startBrace := ⟨rfl, rfl, rfl⟩

theorem test_witness_IssueCommandWord :
    idle.ctl.fault = none ∧ isCommandWord 0x0101 = false
    ∧ (State.reset.ctl.configured = false)
    ∧ (idle.ctl.configured = true ∧ (inFlight .start idle).ctl.inflight ≠ none)
    ∧ meaningful idle.ctl (.send 0x52) = false ∧ CanIssue (.send 0x52) started
    ∧ (decodeCommand 0x0252, Command.send 0x52) ∈ [(Instr.start, Command.start),
        (.send 0x52, .send 0x52), (.recvAck, .recvAck), (.recvNack, .recvNack), (.stop, .stop)] := by
  decide

theorem test_witness_MeaningfulCommands :
    idle.ctl.configured = true ∧ idle.ctl.inflight = none
    ∧ meaningful idle.ctl .recvAck = false := by decide

theorem test_witness_CommandsAreIssued :
    CanIssue .start idle ∧ CanIssue .stop idle ∧ CanIssue (.send 0x52) started
    ∧ CanIssue (.send 0x80) addressedW ∧ CanIssue .recvAck addressedR
    ∧ CanIssue .recvNack transferringR := by decide

/-- Two tables with distinct codes, the second not the default. -/
theorem test_witness_StatusCodesNameTheirStatus :
    (∀ a b, defaultStatusCode a = defaultStatusCode b → a = b)
    ∧ ∀ a b, defaultStatusCode a + 1 = defaultStatusCode b + 1 → a = b := by
  constructor <;> intro a b h <;> cases a <;> cases b <;> first | rfl | exact absurd h (by decide)

/-! ## Witnesses: completion -/

theorem test_witness_StartCompletion :
    ackDraw.start = .owned ∧ lostDraw.start = .arbLost ∧ idle.ctl.phase = .idle
    ∧ (session .stopped false none .noInfo).ctl.phase = .stopped ∧ started.ctl.phase = .started
    ∧ addressedW.ctl.phase = .addressed ∧ transferringR.ctl.phase = .transferring := by decide

theorem test_witness_SendCompletion :
    started.ctl.addrPending = true ∧ addressedW.ctl.addrPending = false ∧ ackDraw.ack = .ack
    ∧ nackDraw.ack = .nack ∧ (0x52 : Byte).getLsbD 0 = false ∧ (0x53 : Byte).getLsbD 0 = true := by
  decide

theorem test_witness_CompletionFrame :
    idle.ctl.fault = none ∧ idle.ctl.inflight = none := by decide

theorem test_witness_TransitionTable :
    (SessionInv idle.ctl ∧ idle.ctl.inflight = none ∧ idle.ctl.phase.idleEq = true)
    ∧ (SessionInv started.ctl ∧ started.ctl.phase.active = true
        ∧ meaningful started.ctl (.send 0x52) = true ∧ started.ctl.inflight = none)
    ∧ (SessionInv addressedW.ctl ∧ meaningful addressedW.ctl (.send 0x80) = true
        ∧ addressedW.ctl.phase.carriesBytes = true ∧ addressedW.ctl.inflight = none)
    ∧ (SessionInv addressedR.ctl ∧ meaningful addressedR.ctl .recvAck = true
        ∧ meaningful addressedR.ctl .recvNack = true ∧ addressedR.ctl.inflight = none)
    ∧ ackDraw.start = .owned ∧ lostDraw.start = .arbLost ∧ ackDraw.ack = .ack
    ∧ nackDraw.ack = .nack := by decide

/-! ## Witnesses: the step -/

/-- A state in which the environment has the turn. -/
def answering (s : State) : State := { s with turn := .environment }

theorem test_witness_StepCompletesTheCommandInFlight :
    (answering (inFlight .start idle)).ctl.fault = none
    ∧ (answering (inFlight .start idle)).ctl.inflight = some .start
    ∧ (answering (inFlight .start idle)).turn = .environment := by decide

theorem test_witness_StepRunsTheDecodedInstruction :
    (HostMoves (inRun [0x5B] [] [] idle) ∧ (inRun [0x5B] [] [] idle).running = true
      ∧ (inRun [0x5B] [] [] idle).interp.cmdStr[(inRun [0x5B] [] [] idle).interp.cursor]? = some 0x5B
      ∧ decode (.character 0x5B) = .ok .startBracket)
    ∧ (HostMoves (withAction (.regWrite 0 0x0100) (inFlight .stop idle))
      ∧ (withAction (.regWrite 0 0x0100) idle).running = false
      ∧ (withAction (.regWrite 0 0x0100) idle).program = [.regWrite 0 0x0100]
      ∧ decode (.write 0 0x0100) = .ok .start)
    ∧ (HostMoves (withAction (.call .stopCondition) idle)
      ∧ (withAction (.call .stopCondition) idle).program = [.call .stopCondition]
      ∧ decode (.call .stopCondition) = .ok .stopCondition) :=
  ⟨⟨by decide, rfl, rfl, rfl⟩, ⟨by decide, rfl, rfl, rfl⟩, ⟨by decide, rfl, rfl⟩⟩

theorem test_witness_AwaitCompleteSpinsThenReturns :
    ((waiting .stopCondition .host (inFlight .stop idle)).ctl.fault = none
      ∧ (waiting .stopCondition .host (inFlight .stop idle)).ctl.inflight = some .stop
      ∧ (waiting .stopCondition .host (inFlight .stop idle)).turn = .host
      ∧ (waiting .stopCondition .host (inFlight .stop idle)).control
          = .polling ⟨.stopCondition, .host⟩)
    ∧ (HostMoves (withAction .awaitComplete idle)
      ∧ (withAction .awaitComplete idle).program = [.awaitComplete])
    ∧ ((waiting .awaitComplete .host idle).ctl.inflight = none
      ∧ (waiting .awaitComplete .host idle).control = .polling ⟨.awaitComplete, .host⟩) := by decide

theorem test_witness_FaultIsTerminalAndSticky :
    idle.ctl.fault = none ∧ faulted.ctl.fault = some .unconfigured := by decide

theorem test_witness_UnfaultedMachineAlwaysSteps : State.reset.ctl.fault = none := rfl

/-- A next state with nothing in flight, and one with a command in flight on the host's turn. -/
theorem test_witness_OnlyCompletionsMoveTheSession :
    (∃ t, step idle = .next t ∧ idle.ctl.inflight = none)
    ∧ ∃ t, step (inFlight .start idle) = .next t ∧ (inFlight .start idle).turn = .host :=
  ⟨⟨_, rfl, rfl⟩, ⟨_, rfl, rfl⟩⟩

theorem test_witness_OnlyBitrateWritesChangeTheBitRate :
    (∃ t, exec .start idle = .next t) ∧ (∀ p d, Instr.start ≠ .bitrateWrite p d)
    ∧ ∀ b r, Instr.start ≠ .setup b r :=
  ⟨⟨_, rfl⟩, fun _ _ h => Instr.noConfusion h, fun _ _ h => Instr.noConfusion h⟩

/-- Steps of both kinds: a pass of a wait keeps the bit rate, a BITRATE write and a call of setup set it. -/
theorem test_witness_OnlyBitrateWrites_steps :
    (∃ t, step (waiting .awaitComplete .host idle) = .next t ∧ t.ctl.divisor = idle.ctl.divisor)
    ∧ (∃ t, step (withAction (.regWrite 3 0x0264) State.reset) = .next t ∧ t.ctl.divisor = 0x64
      ∧ t.ctl.configured = true)
    ∧ ∃ t, step (withAction (.call (.setup 16000000 100000)) State.reset) = .next t
      ∧ t.ctl.divisor = 72 ∧ t.ctl.configured = true :=
  ⟨⟨_, rfl, rfl⟩, ⟨_, rfl, rfl, rfl⟩, ⟨_, rfl, rfl, rfl⟩⟩

/-- One step of each of the three kinds: no change, an issue, a completion of a RECV. -/
theorem test_witness_DataHasTwoWriters :
    (∃ t, step idle = .next t)
    ∧ (∃ t, step (withAction (.regWrite 0 0x0252) started) = .next t ∧ t.ctl.data = some 0x52)
    ∧ ∃ t, step (answering (inFlight .recvAck addressedR)) = .next t ∧ t.ctl.inflight = none :=
  ⟨⟨_, rfl⟩, ⟨_, rfl, rfl⟩, ⟨_, rfl, rfl⟩⟩

/-- A step that adds no event, and one that adds one. -/
theorem test_witness_TraceOnlyGrows :
    (∃ t, step idle = .next t ∧ t.ctl.trace = [])
    ∧ ∃ t, step (answering (inFlight .stop idle)) = .next t ∧ t.ctl.trace = [.stop] :=
  ⟨⟨_, rfl, rfl⟩, ⟨_, rfl, rfl⟩⟩

/-- A step within a run, and the one that ends it. -/
theorem test_witness_RunWritesOnlyTheNextSlot :
    ((inRun [0x72] [0] [] addressedR).running = true
      ∧ ∃ t, step (inRun [0x72] [0] [] addressedR) = .next t ∧ t.running = true)
    ∧ ((inRun [] [] [] idle).running = true
      ∧ ∃ t, step (inRun [] [] [] idle) = .next t ∧ t.running = false) :=
  ⟨⟨rfl, ⟨_, rfl, rfl⟩⟩, ⟨rfl, ⟨_, rfl, rfl⟩⟩⟩

theorem test_witness_InstructionFrame :
    (∃ t, exec .delay1us idle = .next t) ∧ ∀ c r w, Instr.delay1us ≠ .run c r w :=
  ⟨⟨_, rfl⟩, fun _ _ _ h => Instr.noConfusion h⟩

/-- The invariants hold at reset and in a wait with a command in flight, and both states step. -/
theorem test_witness_invariants :
    (Inv State.reset ∧ ∃ t, step State.reset = .next t)
    ∧ (Inv (waiting .readByte .interpreter (inFlight .recvAck (inRun [0x72] [0] [] addressedR)))
      ∧ ∃ t, step (waiting .readByte .interpreter
          (inFlight .recvAck (inRun [0x72] [0] [] addressedR))) = .next t) :=
  ⟨⟨by decide, ⟨_, rfl⟩⟩, ⟨by decide, ⟨_, rfl⟩⟩⟩

theorem test_witness_WaitingPrimitiveNeverFaults :
    Inv (waiting (.retryStart 0x29 .write) .host (inFlight .start idle))
    ∧ (waiting (.retryStart 0x29 .write) .host (inFlight .start idle)).ctl.fault = none
    ∧ (waiting (.retryStart 0x29 .write) .host (inFlight .start idle)).control
        = .polling ⟨.retryStart 0x29 .write, .host⟩ := by decide

theorem test_witness_ServeIsTwoSteps :
    (answering (waiting .stopCondition .host (inFlight .stop idle))).ctl.fault = none
    ∧ (answering (waiting .stopCondition .host (inFlight .stop idle))).ctl.inflight = some .stop
    ∧ (answering (waiting .stopCondition .host (inFlight .stop idle))).turn = .environment
    ∧ (answering (waiting .stopCondition .host (inFlight .stop idle))).control
        = .polling ⟨.stopCondition, .host⟩ := by decide

/-! ## Witnesses: primitives and clock functions -/

/-- For the statements of the primitives: the command can be issued, and both answers exist. -/
theorem test_witness_primitives :
    CanIssue .start idle ∧ CanIssue .start started ∧ CanIssue (.send 0x80) addressedW
    ∧ CanIssue (.send 0x52) started ∧ CanIssue .recvAck addressedR ∧ CanIssue .recvNack addressedR
    ∧ CanIssue .stop idle ∧ ackDraw.start = .owned ∧ lostDraw.start = .arbLost
    ∧ ackDraw.ack = .ack ∧ nackDraw.ack = .nack ∧ started.ctl.addrPending = true
    ∧ addressedW.ctl.addrPending = false := by decide

theorem test_witness_RetryReturnsAfterTheFirstAcknowledge :
    CanIssue .start idle ∧ CanIssue .start transferringR
    ∧ startStatus idle.ctl.phase = .start ∧ startStatus transferringR.ctl.phase = .repeatedStart
    ∧ (∀ r ∈ [(ackDraw, nackDraw, lostDraw), (nackDraw, lostDraw, ackDraw)],
        r.1.start = .owned ∧ r.2.1.ack = .nack)
    ∧ ackDraw.start = .owned ∧ ackDraw.ack = .ack
    ∧ [(ackDraw, nackDraw, lostDraw)].length ≠ 0 := by decide

theorem test_witness_RetryAfterArbitrationLoss :
    (waiting (.retryStart 0x29 .write) .host (inFlight .start idle)).ctl.configured = true
    ∧ (waiting (.retryStart 0x29 .write) .host (inFlight .start idle)).ctl.inflight = some .start
    ∧ (waiting (.retryStart 0x29 .write) .host (inFlight .start idle)).control
        = .polling ⟨.retryStart 0x29 .write, .host⟩
    ∧ lostDraw.start = .arbLost := by decide

theorem test_witness_PrimitiveFaults :
    State.reset.ctl.fault = none ∧ State.reset.ctl.configured = false
    ∧ (inFlight .stop idle).ctl.configured = true ∧ (inFlight .stop idle).ctl.inflight ≠ none
    ∧ idle.ctl.configured = true ∧ idle.ctl.inflight = none
    ∧ meaningful idle.ctl (.send 0x10) = false ∧ meaningful idle.ctl .recvAck = false
    ∧ meaningful idle.ctl .recvNack = false := by decide

/-- The tokens: a slot left, a literal pending, a value left, in an idle, a busy and an unconfigured
controller. -/
theorem test_witness_PrimitiveFaults_tokens :
    (inRun [0x72] [0] [] idle).interp.readIdx < (inRun [0x72] [0] [] idle).interp.readTargets.length
    ∧ ({ idle.interp with acc := 256, pending := true } : Interp).pending = true
    ∧ (inRun [0x77] [] [9] idle).interp.writeValues[(inRun [0x77] [] [9] idle).interp.writeIdx]? = some 9
    ∧ meaningful (inRun [0x77] [] [9] idle).ctl (.send 9) = false
    ∧ meaningful (inRun [0x72] [0] [] idle).ctl .recvAck = false
    ∧ (inRun [0x72] [0] [] (inFlight .stop idle)).ctl.inflight ≠ none
    ∧ (inRun [0x77] [] [9] State.reset).ctl.configured = false := by decide

/-- Exponents 0 and 1, at a divisor of 0 and at the largest. -/
theorem test_witness_TermwiseOkAtSmallExponentsIsExact :
    computeClockParameters .termwise 16000000 1000000 = .ok 0 0
    ∧ computeClockParameters .termwise 526 1 = .ok 0 255
    ∧ computeClockParameters .termwise 528 1 = .ok 1 64
    ∧ computeClockParameters .termwise 8000000 10000 = .ok 1 98 ∧ (1 : BitVec 2).toNat ≤ 1 := by
  decide

theorem test_witness_ClockFunctionsReturn :
    State.reset.ctl.fault = none ∧ State.reset.control = .ready ∧ State.reset.ctl.inflight = none
    ∧ computeClockParameters .termwise 16000000 100000 = .ok 0 72
    ∧ (inFlight .start idle).ctl.inflight ≠ none ∧ (inFlight .start idle).control = .ready
    ∧ computeClockParameters .termwise 16000000 100 = .unreachableBitrate := by decide

/-! ## Witnesses: the interpreter -/

theorem test_witness_RunStartsAFreshScan : idle.ctl.fault = none ∧ idle.control = .ready := by decide

/-- All operands used, a slot left over, a write value left over. -/
theorem test_witness_RunEnds :
    (HostMoves (inRun [] [] [] idle) ∧ (inRun [] [] [] idle).running = true
      ∧ (inRun [] [] [] idle).interp.cursor = (inRun [] [] [] idle).interp.cmdStr.length)
    ∧ (inRun [] [0] [] idle).interp.readIdx ≠ (inRun [] [0] [] idle).interp.readTargets.length
    ∧ (inRun [] [] [9] idle).interp.writeIdx ≠ (inRun [] [] [9] idle).interp.writeValues.length
    ∧ HostMoves (inRun [] [0] [] idle) ∧ HostMoves (inRun [] [] [9] idle) := by decide

theorem test_witness_start_and_stop_tokens : CanIssue .start idle ∧ CanIssue .stop started := by decide

theorem test_witness_ReadTokens :
    CanIssue .recvAck (inRun [0x72] [0] [] addressedR)
    ∧ CanIssue .recvNack (inRun [0x73] [0] [] addressedR)
    ∧ (inRun [0x72] [0] [] addressedR).interp.readIdx
        < (inRun [0x72] [0] [] addressedR).interp.readTargets.length := by decide

theorem test_witness_WriteTokens :
    (inRun [0x77] [] [0xA0] started).interp.writeValues[(inRun [0x77] [] [0xA0] started).interp.writeIdx]?
      = some 0xA0
    ∧ CanIssue (.send 0xA0) (inRun [0x77] [] [0xA0] started) := by decide

/-- Nothing pending, and a literal of 256, which writes 0. -/
theorem test_witness_DelimiterTokens :
    (idle.ctl.fault = none ∧ idle.interp.pending = false ∧ idle.control = .ready)
    ∧ ({ addressedW with interp := { idle.interp with acc := 256, pending := true } } : State).interp.pending
        = true
    ∧ CanIssue (.send (BitVec.ofNat 8 (256 % 256)))
        { addressedW with interp := { idle.interp with acc := 256, pending := true } } := by decide

/-- A digit just below its radix, and one equal to it. -/
theorem test_witness_digit_rows :
    (Instr.digit9, 9) ∈ digitRows ∧ 9 < idle.interp.radix.base
    ∧ (Instr.digitUpperA, 10) ∈ digitRows ∧ idle.interp.radix.base ≤ 10
    ∧ (Instr.digitUpperF, 15) ∈ digitRows ∧ 15 < Radix.sixteen.base
    ∧ (Instr.digit2, 2) ∈ digitRows ∧ Radix.two.base ≤ 2 := by decide

theorem test_witness_IgnoredCharacters :
    idle.ctl.fault = none ∧ idle.control = .ready ∧ isNamedCharacter 0x58 = false := by decide

theorem test_witness_OperandFaults :
    idle.ctl.fault = none ∧ idle.interp.readTargets.length ≤ idle.interp.readIdx
    ∧ idle.interp.writeValues.length ≤ idle.interp.writeIdx := by decide

end Sys2Proof.Tests
end

namespace Sys2Proof.Machine

/-! ## Status codes and their names (30_encoding.md R66, 42_bus_driver.md R95) -/

/-- R66's table leaves no status out. -/
theorem mem_allStatuses (st : Status) : st ∈ allStatuses := by
  cases st <;> decide

/-- A name that is read back is that of a status with the byte as its code, under any table. -/
theorem code_of_statusName_eq_some {codes : Status → Byte} {b : Byte} {st : Status}
    (h : statusName codes b = some st) : codes st = b :=
  eq_of_beq (List.find?_some (p := fun a => codes a == b) h)

/-- A byte has no name exactly when it is no status's code. -/
theorem statusName_eq_none_iff {codes : Status → Byte} {b : Byte} :
    statusName codes b = none ↔ ∀ st, codes st ≠ b := by
  simp [statusName, List.find?_eq_none, mem_allStatuses]

/-- The code of a status names that status, whatever the codes are, as long as they are distinct. -/
theorem statusName_code {codes : Status → Byte} (hdistinct : ∀ a b, codes a = codes b → a = b)
    (st : Status) : statusName codes (codes st) = some st := by
  cases hname : statusName codes (codes st) with
  | none => exact absurd rfl (statusName_eq_none_iff.mp hname st)
  | some a => rw [hdistinct a st (code_of_statusName_eq_some hname)]

/-- The codes of R66's table are distinct. -/
theorem defaultStatusCode_distinct (a b : Status)
    (h : defaultStatusCode a = defaultStatusCode b) : a = b :=
  (distinctCodes_iff defaultStatusCode).mp (by decide) a b h

/-- The machine uses the parameter `STATUS_CODE` whenever R66 allows it. -/
theorem statusCode_eq_config
    (h : ∀ a b, Config.statusCode a = Config.statusCode b → a = b) :
    statusCode = Config.statusCode :=
  if_pos ((distinctCodes_iff _).mpr h)

/-- The machine's codes are distinct, with no premise on the parameter: a parameter that R66 does not
allow is not used (log entry 4). -/
theorem statusCode_distinct (a b : Status) (h : statusCode a = statusCode b) : a = b := by
  unfold statusCode at h
  split at h
  case isTrue hconfig => exact (distinctCodes_iff _).mp hconfig a b h
  case isFalse => exact defaultStatusCode_distinct a b h

/-- Settles O14: distinct codes are inverted by the search for the name, and both the default table and
the table the machine uses have distinct codes. -/
theorem statusCodesNameTheirStatus : Obligations.StatusCodesNameTheirStatus :=
  ⟨fun _ hdistinct => statusName_code hdistinct, defaultStatusCode_distinct, statusCode_distinct,
    statusCode_eq_config⟩

end Sys2Proof.Machine

namespace Sys2Proof.Machine

/-! ## The session and the controller under the moves of the two agents (10_state.md R24, R25, R29, R30,
R39) -/

section Controller

variable {c c' : Controller}

@[simp] theorem meaningful_accept (cmd cmd' : Command) (c : Controller) :
    meaningful (accept cmd c) cmd' = meaningful c cmd' := by
  cases cmd' <;> rfl

/-- The checks of R81 and R82, once passed, are what the invariant asks of the command in flight. -/
theorem inflightOk_accept {cmd : Command} (hc : c.configured = true)
    (hm : meaningful c cmd = true) : inflightOk (accept cmd c) = true := by
  cases cmd <;> simp [inflightOk, hc, hm]

/-- A command in flight is meaningful where the invariant holds. -/
theorem meaningful_of_inflightOk {cmd : Command} (hok : inflightOk c = true)
    (hi : c.inflight = some cmd) : meaningful c cmd = true := by
  cases cmd <;> simp_all [inflightOk, meaningful]

/-- A SEND that is meaningful and is no address byte is a data byte, sent in write direction. -/
theorem direction_of_meaningful_send {b : Byte} (hm : meaningful c (.send b) = true)
    (hp : c.addrPending = false) : c.direction = some .write := by
  simp only [meaningful, hp, Bool.and_false, Bool.false_or, Bool.and_eq_true, beq_iff_eq] at hm
  exact hm.2

/-- Where bytes are carried no address byte is pending (R25). -/
theorem addrPending_of_carriesBytes (hpend : c.addrPending = true → c.phase = .started)
    (hcarries : c.phase.carriesBytes = true) : c.addrPending = false := by
  by_contra h
  rw [hpend (by simpa using h)] at hcarries
  cases hcarries

/-- A move of the host keeps the session invariants: only an accepted command changes what they speak
of, and it has passed its checks. -/
theorem HostMove.sessionInv (h : HostMove c c') (hs : SessionInv c) : SessionInv c' := by
  cases h with
  | same | raised | delayed => exact hs
  | accepted cmd hc hi hm =>
    obtain ⟨hdir, hpend, hnone, -⟩ := hs
    exact ⟨hdir, hpend, hnone, inflightOk_accept hc hm⟩
  | bitrate p d hi =>
    obtain ⟨hdir, hpend, hnone, -⟩ := hs
    exact ⟨hdir, hpend, hnone, by simp [inflightOk, hi]⟩

/-- With nothing in flight the session invariants are three clauses on the phase alone (R24, R25). -/
theorem sessionInv_of_idle (hi : c.inflight = none) :
    SessionInv c ↔ (c.phase.carriesBytes = true → c.direction ≠ none)
      ∧ (c.addrPending = true → c.phase = .started)
      ∧ (c.phase.carriesBytes = false → c.direction = none) := by
  simp [SessionInv, inflightOk, hi]

/-- A completion keeps the session invariants (R86, R88 to R91). A data byte or a RECV moves the session
to Transferring, and there the direction and the address flag are right because the command was
meaningful; the other completions write all that the invariants speak of, or start from Started. -/
theorem completionRule_sessionInv {cmd : Command} (d : Draw) (hs : SessionInv c)
    (hi : c.inflight = some cmd) :
    SessionInv { completionRule cmd d c with inflight := none } := by
  obtain ⟨-, hpend, -, hok⟩ := hs
  have hm := meaningful_of_inflightOk hok hi
  rw [sessionInv_of_idle rfl]
  cases cmd with
  | start =>
    cases hd : d.start <;> simp [completionRule, completeStart, hd, Phase.carriesBytes]
  | send b =>
    cases hp : c.addrPending with
    | true =>
      have hphase : c.phase = .started := hpend hp
      cases hd : d.ack <;>
        simp [completionRule, completeSend, completeAddress, hp, hd, hphase, Phase.carriesBytes]
    | false =>
      have hdir := direction_of_meaningful_send hm hp
      simp [completionRule, completeSend, completeData, hp, hdir, Phase.carriesBytes]
  | recvAck | recvNack =>
    obtain ⟨hcarries, hdir⟩ : c.phase.carriesBytes = true ∧ c.direction = some .read := by
      simpa [meaningful] using hm
    have hp : c.addrPending = false := addrPending_of_carriesBytes hpend hcarries
    simp [completionRule, completeRecvAck, completeRecvNack, hp, hdir, Phase.carriesBytes]
  | stop => simp [completionRule, completeStop, Phase.carriesBytes]

/-! ### What a move leaves alone -/

/-- No move of the host writes the phase, the direction, `addrPending` or the status (R29). -/
theorem HostMove.session_eq (h : HostMove c c') :
    c'.phase = c.phase ∧ c'.direction = c.direction ∧ c'.addrPending = c.addrPending
      ∧ c'.status = c.status := by
  cases h <;> exact ⟨rfl, rfl, rfl, rfl⟩

/-- A move of the host adds at most one event, the delay token's (R39). -/
theorem HostMove.trace_eq_or_append (h : HostMove c c') :
    c'.trace = c.trace ∨ ∃ e, c'.trace = c.trace ++ [e] := by
  cases h with
  | delayed => exact .inr ⟨_, rfl⟩
  | same | raised | accepted | bitrate => exact .inl rfl

/-- A move of the host writes DATA only as it issues a SEND, from an idle controller (R30, R81). -/
theorem HostMove.data_eq_or_send (h : HostMove c c') :
    c'.data = c.data
      ∨ ∃ b, c.inflight = none ∧ c'.inflight = some (.send b) ∧ c'.data = some b := by
  cases h with
  | accepted cmd hc hi hm =>
    cases cmd with
    | send b => exact .inr ⟨b, hi, rfl, rfl⟩
    | start | recvAck | recvNack | stop => exact .inl rfl
  | same | raised | bitrate | delayed => exact .inl rfl

/-- What a completion can write (R84, R86, R88 to R91): the session, one event, and DATA with the byte a
RECV has drawn. -/
theorem completionRule_shape (cmd : Command) (d : Draw) (c : Controller) :
    ∃ (p : Phase) (dir : Option Dir) (pend : Bool) (st : Status) (data : Option Byte) (e : Event),
      completionRule cmd d c = { c with
        phase := p, direction := dir, addrPending := pend, status := st, data := data
        trace := c.trace ++ [e] }
      ∧ (data = c.data ∨ (cmd = .recvAck ∨ cmd = .recvNack) ∧ data = some d.byte) := by
  obtain ⟨obtained, answer, byte⟩ := d
  cases cmd with
  | start => cases obtained <;> exact ⟨_, _, _, _, _, _, rfl, .inl rfl⟩
  | send b =>
    simp only [completionRule, completeSend]
    split
    · cases answer <;> exact ⟨_, _, _, _, _, _, rfl, .inl rfl⟩
    · exact ⟨_, _, _, _, _, _, rfl, .inl rfl⟩
  | recvAck => exact ⟨_, _, _, _, _, _, rfl, .inr ⟨.inl rfl, rfl⟩⟩
  | recvNack => exact ⟨_, _, _, _, _, _, rfl, .inr ⟨.inr rfl, rfl⟩⟩
  | stop => exact ⟨_, _, _, _, _, _, rfl, .inl rfl⟩

/-- Every completion adds exactly one event. -/
theorem completionRule_trace (cmd : Command) (d : Draw) (c : Controller) :
    ∃ e, (completionRule cmd d c).trace = c.trace ++ [e] := by
  obtain ⟨_, _, _, _, _, e, heq, -⟩ := completionRule_shape cmd d c
  exact ⟨e, by rw [heq]⟩

/-- A completion writes DATA only with the byte a RECV has drawn (R89, R90). -/
theorem completionRule_data (cmd : Command) (d : Draw) (c : Controller) :
    (completionRule cmd d c).data = c.data
      ∨ (cmd = .recvAck ∨ cmd = .recvNack) ∧ (completionRule cmd d c).data = some d.byte := by
  obtain ⟨_, _, _, _, _, _, heq, hdata⟩ := completionRule_shape cmd d c
  rw [heq]
  exact hdata

/-- No completion writes the bit-rate fields, `configured` or the fault (R84). -/
theorem completionRule_ratesKept (cmd : Command) (d : Draw) (c : Controller) :
    RatesKept c (completionRule cmd d c) := by
  obtain ⟨_, _, _, _, _, _, heq, -⟩ := completionRule_shape cmd d c
  rw [heq]
  exact ⟨rfl, rfl, rfl, rfl⟩

end Controller

/-- Settles O34: a step is a completion or a move of the host, and each keeps the invariants. -/
theorem sessionInvariantIsKept : Obligations.SessionInvariantIsKept := by
  intro s t hs h
  obtain ⟨-, ⟨cmd, hi, -, rfl⟩ | ⟨-, hmove⟩⟩ := step_cases h
  · exact completionRule_sessionInv _ hs hi
  · exact (hostStep_move hmove).sessionInv hs

/-- Settles O28: such a step is a move of the host. -/
theorem onlyCompletionsMoveTheSession : Obligations.OnlyCompletionsMoveTheSession := by
  intro s t h hturn
  obtain ⟨-, ⟨cmd, hi, henv, -⟩ | ⟨-, hmove⟩⟩ := step_cases h
  · simp [hi, henv] at hturn
  · exact (hostStep_move hmove).session_eq

/-- Settles O30: a completion appends one event, and a move of the host at most one. -/
theorem traceOnlyGrows : Obligations.TraceOnlyGrows := by
  intro s t h
  obtain ⟨-, ⟨cmd, -, -, rfl⟩ | ⟨-, hmove⟩⟩ := step_cases h
  · exact .inr (completionRule_trace cmd _ _)
  · exact (hostStep_move hmove).trace_eq_or_append

/-- Settles O31: the host writes DATA as it issues a SEND, the environment as it completes a RECV. -/
theorem dataHasTwoWriters : Obligations.DataHasTwoWriters := by
  intro s t h
  obtain ⟨-, ⟨cmd, hi, -, rfl⟩ | ⟨-, hmove⟩⟩ := step_cases h
  · rcases completionRule_data cmd (Config.draw s.tick) s.ctl with hdata | ⟨hrecv, hdata⟩
    · exact .inl hdata
    · exact .inr (.inr ⟨by simpa [hi] using hrecv, rfl, hdata⟩)
  · exact (hostStep_move hmove).data_eq_or_send.imp_right .inl

/-! ## What an instruction does, said once for each kind (43_command_interpreter.md R104 to R125) -/

/-- The effect of a character of the mini-language, by its shared token action. -/
inductive TokenEffect (s : State) : State → Prop where
  | start : TokenEffect s (startToken s)
  | stop : TokenEffect s (stopToken s)
  | radix (r : Radix) : TokenEffect s (radixToken r s)
  | readMore : TokenEffect s (readToken .recvAck s)
  | readLast : TokenEffect s (readToken .recvNack s)
  | write : TokenEffect s (writeToken s)
  | delimit : TokenEffect s (flushToken s)
  | delay : TokenEffect s (delayToken s)
  | digit (dv : Nat) : TokenEffect s (digitToken dv s)
  | ignored : TokenEffect s (ignoreToken s)

/-- The instruction that writes the command to CMD (30_encoding.md R60). -/
def Command.instr : Command → Instr
  | .start => .start
  | .send b => .send b
  | .recvAck => .recvAck
  | .recvNack => .recvNack
  | .stop => .stop

/-- The first command of each Bus Driver primitive, and where the primitive waits for it (R96 to R102). -/
inductive PrimitiveOpens : Instr → Point → Command → Prop where
  | startCondition : PrimitiveOpens .startCondition .startCondition .start
  | addressedStart (a : SlaveAddr) (d : Dir) :
      PrimitiveOpens (.addressedStart a d) (.addressedStart a d) .start
  | retryStart (a : SlaveAddr) (d : Dir) :
      PrimitiveOpens (.retryingAddressedStart a d) (.retryStart a d) .start
  | writeByte (v : Byte) : PrimitiveOpens (.writeByte v) .writeByte (.send v)
  | requestMore : PrimitiveOpens .readByteRequestMore .readByte .recvAck
  | lastByte : PrimitiveOpens .readByteLastByte .readByte .recvNack
  | stopCondition : PrimitiveOpens .stopCondition .stopCondition .stop

/-- The effect of an instruction, by the kind of its row. -/
inductive InstrEffect (s : State) : Instr → State → Prop where
  | command (cmd : Command) : InstrEffect s cmd.instr (settle s (issue cmd s))
  | reserved (w : Word16) : InstrEffect s (.reservedCommandWord w) (raise .reservedCommand s)
  | bitrate (p : BitVec 2) (d : Byte) :
      InstrEffect s (.bitrateWrite p d) (settle s (writeBitrate (brword p d) s))
  | primitive {i : Instr} {p : Point} {cmd : Command} (hopens : PrimitiveOpens i p cmd) :
      InstrEffect s i (issueAndWait ⟨p, .host⟩ cmd s)
  | clock (base target : Nat) :
      InstrEffect s (.computeClockParameters base target)
        (ret (.clock (computeClockParameters Config.clockDivReading base target)) s)
  | setup (base target : Nat) :
      InstrEffect s (.setup base target) (Sys2Proof.Machine.setup base target s)
  | run (cmdStr slots values : List Byte) :
      InstrEffect s (.run cmdStr slots values) { s with
        interp := Interp.initial cmdStr slots values, running := true, control := .ready }
  | token {i : Instr} {b : Byte} {t : State} (hi : encode i = .character b)
      (ht : TokenEffect s t) : InstrEffect s i t

/-- Every row of the opcode table is of one of these kinds. -/
theorem exec_effect {i : Instr} {s t : State} (h : exec i s = .next t) : InstrEffect s i t := by
  cases i <;> obtain ⟨-, rfl⟩ := act_next h
  case start => exact .command .start
  case send b => exact .command (.send b)
  case recvAck => exact .command .recvAck
  case recvNack => exact .command .recvNack
  case stop => exact .command .stop
  case reservedCommandWord => exact .reserved _
  case bitrateWrite => exact .bitrate _ _
  case startCondition => exact .primitive .startCondition
  case addressedStart => exact .primitive (.addressedStart _ _)
  case retryingAddressedStart => exact .primitive (.retryStart _ _)
  case writeByte => exact .primitive (.writeByte _)
  case readByteRequestMore => exact .primitive .requestMore
  case readByteLastByte => exact .primitive .lastByte
  case stopCondition => exact .primitive .stopCondition
  case computeClockParameters => exact .clock _ _
  case setup => exact .setup _ _
  case run => exact .run _ _ _
  case startBrace | startBracket => exact .token rfl .start
  case stopBrace | stopBracket => exact .token rfl .stop
  case radix16 | radix2 => exact .token rfl (.radix _)
  case readMoreLower | readMoreUpper => exact .token rfl .readMore
  case readLastLower | readLastUpper => exact .token rfl .readLast
  case writeNextLower | writeNextUpper => exact .token rfl .write
  case delimitSpace | delimitComma => exact .token rfl .delimit
  case delay1us => exact .token rfl .delay
  case ignore => exact .token rfl .ignored
  all_goals exact .token rfl (.digit _)

/-! ## What the host's next move is (20_memory.md R44, 43_command_interpreter.md R104) -/

/-- The characters of the token table are those of their rows (30_encoding.md R67). -/
theorem encode_tokenTable : ∀ row ∈ tokenTable, encode row.2 = .character row.1 := by decide

/-- A character decodes to an instruction that it presents. -/
theorem encode_decodeToken (b : Byte) : encode (decodeToken b) = .character b := by
  unfold decodeToken
  split
  · rename_i i hrow
    obtain ⟨before, after, htable, -⟩ := List.lookup_eq_some_iff.mp hrow
    exact encode_tokenTable (b, i) (by simp [htable])
  · rfl

/-- A word written to CMD decodes to an instruction that is a write to CMD. -/
theorem encode_decodeCommand (w : Word16) : ∃ v, encode (decodeCommand w) = .write 0 v := by
  unfold decodeCommand
  repeat' split
  all_goals exact ⟨_, rfl⟩

/-- A call decodes to an instruction that it presents. -/
theorem encode_decodeCall (f : HostFunction) : encode (decodeCall f) = .call f := by
  cases f <;> rfl

/-- The host is in a run, with a character at the cursor. -/
def AtCharacter (s : State) : Prop :=
  s.running = true ∧ s.interp.cursor < s.interp.cmdStr.length

/-- The next move of a ready host: a character of the run, the end of the run, nothing, or the action at
the head of its program. -/
theorem fetch_cases (s : State) :
    (∃ b, AtCharacter s ∧ s.interp.cmdStr[s.interp.cursor]? = some b
        ∧ fetch s = .instr (decodeToken b) s)
    ∨ (s.running = true ∧ s.interp.cmdStr.length ≤ s.interp.cursor
        ∧ fetch s = .other (endOfRun s))
    ∨ (s.running = false ∧ s.program = [] ∧ fetch s = .other s)
    ∨ ∃ a rest, s.running = false ∧ s.program = a :: rest
        ∧ fetch s = perform a { s with program := rest } := by
  unfold fetch
  cases hrun : s.running with
  | true =>
    cases hch : readCommandByte s.interp s.interp.cursor with
    | none => exact .inr (.inl ⟨rfl, List.getElem?_eq_none_iff.mp hch, rfl⟩)
    | some b =>
      have hcursor := (List.getElem?_eq_some_iff.mp hch).1
      exact .inl ⟨b, ⟨hrun, hcursor⟩, hch, rfl⟩
  | false =>
    cases hprog : s.program with
    | nil => exact .inr (.inr (.inl ⟨rfl, rfl, rfl⟩))
    | cons a rest => exact .inr (.inr (.inr ⟨a, rest, rfl, rfl, rfl⟩))

/-- A register write is a command at CMD, a bit rate at BITRATE, or rejected, for a reserved field only
at BITRATE (R44, R79). -/
theorem decodeWrite_cases (off : Offset) (v : Word16) :
    (off = 0 ∧ decodeWrite off v = .ok (decodeCommand v))
    ∨ (off = 3 ∧ ∃ p d, decodeWrite off v = .ok (.bitrateWrite p d))
    ∨ ∃ e, (e = .reservedField → off = 3) ∧ decodeWrite off v = .error e := by
  unfold decodeWrite
  split
  · rename_i hcmd
    exact .inl ⟨hcmd, rfl⟩
  · split
    · rename_i hbitrate
      split
      · exact .inr (.inl ⟨hbitrate, _, _, rfl⟩)
      · exact .inr (.inr ⟨_, fun _ => hbitrate, rfl⟩)
    · split
      · exact .inr (.inr ⟨.unmappedRegister, by simp, rfl⟩)
      · exact .inr (.inr ⟨.readOnlyRegister, by simp, rfl⟩)

/-- A register write as the host's move. -/
theorem perform_regWrite_cases (off : Offset) (v : Word16) (s : State) :
    (off = 0 ∧ perform (.regWrite off v) s = .instr (decodeCommand v) s)
    ∨ (off = 3 ∧ ∃ p d, perform (.regWrite off v) s = .instr (.bitrateWrite p d) s)
    ∨ ∃ e, (e = .reservedField → off = 3)
        ∧ perform (.regWrite off v) s = .other (rejectedWrite e v s) := by
  rcases decodeWrite_cases off v with ⟨h0, h⟩ | ⟨h3, p, d, h⟩ | ⟨e, he, h⟩
  · exact .inl ⟨h0, by simp only [perform, decode, h]⟩
  · exact .inr (.inl ⟨h3, p, d, by simp only [perform, decode, h]⟩)
  · exact .inr (.inr ⟨e, he, by simp only [perform, decode, h]⟩)

/-- A step of the host is a pass of its wait, or its next move. -/
theorem hostStep_cases {s t : State} (h : hostStep s = .next t) :
    (∃ k, s.control = .polling k ∧ t = poll k s)
    ∨ s.control = .ready
      ∧ ((∃ i u, fetch s = .instr i u ∧ exec i u = .next t) ∨ fetch s = .other t) := by
  unfold hostStep at h
  cases hcontrol : s.control with
  | polling k => exact .inl ⟨k, rfl, by simpa [hcontrol] using h.symm⟩
  | ready =>
    cases hfetch : fetch s with
    | instr i u => exact .inr ⟨rfl, .inl ⟨i, u, rfl, by simpa [hcontrol, hfetch] using h⟩⟩
    | other u => exact .inr ⟨rfl, .inr (by simpa [hcontrol, hfetch] using h)⟩

/-! ## The bit rate (10_state.md R31, 40_clock_configurator.md R79, R80) -/

/-- What a BITRATE write and nothing else writes: `configured` and the two bit-rate fields. -/
def Controller.rates (c : Controller) : Bool × BitVec 2 × Byte :=
  (c.configured, c.prescalerExponent, c.divisor)

theorem rates_eq_iff {c c' : Controller} :
    c'.rates = c.rates ↔ c'.configured = c.configured
      ∧ c'.prescalerExponent = c.prescalerExponent ∧ c'.divisor = c.divisor := by
  simp [Controller.rates]

/-- A move of the host that changes the bit rate leaves the controller configured. -/
theorem HostMove.rates_eq_or_configured {c c' : Controller} (h : HostMove c c') :
    c'.rates = c.rates ∨ c'.configured = true := by
  cases h with
  | bitrate => exact .inr rfl
  | same | raised | accepted | delayed => exact .inl rfl

@[simp] theorem raise_rates (r : Fault) (s : State) : (raise r s).ctl.rates = s.ctl.rates := rfl

@[simp] theorem settle_issue_rates (cmd : Command) (s : State) :
    (settle s (issue cmd s)).ctl.rates = s.ctl.rates := by
  cases h : issue cmd s with
  | error r => rfl
  | ok t => obtain ⟨-, -, -, rfl⟩ := issue_ok h; rfl

@[simp] theorem issueAndWait_rates (k : Await) (cmd : Command) (s : State) :
    (issueAndWait k cmd s).ctl.rates = s.ctl.rates := by
  rcases issueAndWait_cases k cmd s with ⟨-, -, -, h⟩ | ⟨r, h⟩ <;> (rw [h]; rfl)

theorem flushToken_rates (s : State) : (flushToken s).ctl.rates = s.ctl.rates := by
  unfold flushToken
  split
  · exact issueAndWait_rates _ _ _
  · rfl

theorem readToken_rates (cmd : Command) (s : State) :
    (readToken cmd s).ctl.rates = s.ctl.rates := by
  unfold readToken
  split
  · exact issueAndWait_rates _ _ _
  · rfl

theorem writeToken_rates (s : State) : (writeToken s).ctl.rates = s.ctl.rates := by
  unfold writeToken
  split
  · rfl
  · exact flushToken_rates _

theorem TokenEffect.rates_eq {s t : State} (h : TokenEffect s t) : t.ctl.rates = s.ctl.rates := by
  cases h with
  | start | stop => exact issueAndWait_rates _ _ _
  | radix | delay | ignored => rfl
  | readMore | readLast => exact readToken_rates _ s
  | write => exact writeToken_rates s
  | delimit => exact flushToken_rates s
  | digit dv => unfold digitToken; split <;> rfl

/-- The end of a primitive keeps the bit rate when what its caller does next keeps the controller. -/
theorem finish_rates (caller : Caller) (v : ReturnValue) {after : State → Except Fault State}
    {s : State} (h : ∀ t, after s = .ok t → t.ctl = s.ctl) :
    (finish caller v after s).ctl.rates = s.ctl.rates := by
  cases caller with
  | host => rfl
  | interpreter =>
    cases e : after s with
    | error r => simp [finish, e, Except.map]
    | ok t => simp [finish, e, Except.map, h t e]

theorem resume_rates (k : Await) (s : State) : (resume k s).ctl.rates = s.ctl.rates := by
  obtain ⟨p, caller⟩ := k
  have hok : ∀ v, (finish caller v .ok s).ctl.rates = s.ctl.rates := fun v =>
    finish_rates _ _ fun t e => by cases e; rfl
  cases p
  case awaitComplete | startCondition | addressedSend | stopCondition => exact hok _
  case retryStop => exact issueAndWait_rates _ _ _
  case writeByte => exact finish_rates _ _ fun t e => by cases e; rfl
  case addressedStart | retryStart | retrySend =>
    simp only [resume]
    split <;> simp only [hok, issueAndWait_rates]
  case readByte =>
    simp only [resume]
    split
    · exact finish_rates _ _ fun t e => storeRead_ctl e
    · rfl

theorem poll_rates (k : Await) (s : State) : (poll k s).ctl.rates = s.ctl.rates := by
  unfold poll
  split
  · exact resume_rates k s
  · rfl

/-- The instruction is neither a BITRATE write nor a call of setup. -/
def LeavesRates (i : Instr) : Prop :=
  (∀ p d, i ≠ .bitrateWrite p d) ∧ ∀ base target, i ≠ .setup base target

theorem leavesRates_decodeToken (b : Byte) : LeavesRates (decodeToken b) := by
  have h := encode_decodeToken b
  constructor <;> (intro _ _ hi; rw [hi] at h; cases h)

theorem leavesRates_decodeCommand (w : Word16) : LeavesRates (decodeCommand w) := by
  obtain ⟨v, h⟩ := encode_decodeCommand w
  constructor <;> (intro _ _ hi; rw [hi] at h; cases h)

theorem InstrEffect.rates_eq {i : Instr} {s t : State} (h : InstrEffect s i t)
    (hi : LeavesRates i) : t.ctl.rates = s.ctl.rates := by
  cases h with
  | reserved | clock | run => rfl
  | command cmd => exact settle_issue_rates cmd s
  | bitrate p d => exact absurd rfl (hi.1 p d)
  | setup base target => exact absurd rfl (hi.2 base target)
  | primitive => exact issueAndWait_rates _ _ s
  | token _ ht => exact ht.rates_eq

/-- The host's next action is a write to BITRATE or a call of setup. -/
def AtRateAction (s : State) : Prop :=
  ∃ rest, (∃ v, s.program = .regWrite 3 v :: rest)
    ∨ ∃ base target, s.program = .call (.setup base target) :: rest

/-- The move leaves the bit rate of the controller alone. -/
def Fetched.LeavesRates (c : Controller) : Fetched → Prop
  | .instr i t => t.ctl = c ∧ Machine.LeavesRates i
  | .other t => t.ctl.rates = c.rates

theorem rejectedWrite_rates {e : Reject} (he : e ≠ .reservedField) (v : Word16) (s : State) :
    (rejectedWrite e v s).ctl.rates = s.ctl.rates := by
  rcases rejectedWrite_cases e v s with ⟨r, h⟩ | ⟨h, -⟩
  · rw [h, raise_rates]
  · exact absurd h he

theorem endOfRun_rates (s : State) : (endOfRun s).ctl.rates = s.ctl.rates := by
  rcases endOfRun_cases s with ⟨-, h⟩ | ⟨-, -, h⟩
  · rw [h, raise_rates]
  · rw [h]

/-- Any action but the two that set the bit rate leaves it alone. -/
theorem perform_leavesRates (a : Action) (s : State) :
    (∃ v, a = .regWrite 3 v) ∨ (∃ base target, a = .call (.setup base target))
      ∨ (perform a s).LeavesRates s.ctl := by
  cases a with
  | awaitComplete => exact .inr (.inr rfl)
  | regRead off =>
    refine .inr (.inr ?_)
    simp only [perform]
    split <;> rfl
  | call f =>
    by_cases hf : ∃ base target, f = .setup base target
    · obtain ⟨base, target, rfl⟩ := hf
      exact .inr (.inl ⟨base, target, rfl⟩)
    · have h := encode_decodeCall f
      refine .inr (.inr ⟨rfl, fun p d hi => ?_, fun base target hi => hf ⟨base, target, ?_⟩⟩)
      · rw [hi] at h; cases h
      · rw [hi] at h; cases h; rfl
  | regWrite off v =>
    rcases perform_regWrite_cases off v s with ⟨-, h⟩ | ⟨rfl, -⟩ | ⟨e, he, h⟩
    · exact .inr (.inr (by rw [h]; exact ⟨rfl, leavesRates_decodeCommand v⟩))
    · exact .inl ⟨v, rfl⟩
    · by_cases h3 : off = 3
      · exact .inl ⟨v, by rw [h3]⟩
      · exact .inr (.inr (by rw [h]; exact rejectedWrite_rates (mt he h3) v s))

/-- The next move of the host leaves the bit rate alone, unless it is one of those two actions. -/
theorem fetch_leavesRates (s : State) :
    (s.running = false ∧ AtRateAction s) ∨ (fetch s).LeavesRates s.ctl := by
  rcases fetch_cases s with
    ⟨b, -, -, h⟩ | ⟨-, -, h⟩ | ⟨-, -, h⟩ | ⟨a, rest, hrun, hprog, h⟩
  · exact .inr (by rw [h]; exact ⟨rfl, leavesRates_decodeToken b⟩)
  · exact .inr (by rw [h]; exact endOfRun_rates s)
  · exact .inr (by rw [h]; rfl)
  · rw [h]
    rcases perform_leavesRates a { s with program := rest } with
      ⟨v, rfl⟩ | ⟨base, target, rfl⟩ | hkeep
    · exact .inl ⟨hrun, rest, .inl ⟨v, hprog⟩⟩
    · exact .inl ⟨hrun, rest, .inr ⟨base, target, hprog⟩⟩
    · exact .inr hkeep

theorem hostStep_rates {s t : State} (h : hostStep s = .next t) :
    t.ctl.rates = s.ctl.rates
      ∨ (s.control = .ready ∧ s.running = false ∧ AtRateAction s) := by
  rcases hostStep_cases h with ⟨k, -, rfl⟩ | ⟨hready, hnext⟩
  · exact .inl (poll_rates k s)
  · rcases fetch_leavesRates s with ⟨hrun, hact⟩ | hkeep
    · exact .inr ⟨hready, hrun, hact⟩
    · left
      rcases hnext with ⟨i, u, hfetch, hexec⟩ | hfetch <;> rw [hfetch] at hkeep
      · obtain ⟨hctl, hi⟩ := hkeep
        rw [(exec_effect hexec).rates_eq hi, hctl]
      · exact hkeep

/-- Settles O29: only a BITRATE write and setup have an effect on the bit rate, and the host reaches them
only through the two actions of its program; what changes the bit rate configures the controller. -/
theorem onlyBitrateWritesChangeTheBitRate : Obligations.OnlyBitrateWritesChangeTheBitRate := by
  refine ⟨fun i s t h hbitrate hsetup =>
    rates_eq_iff.mp ((exec_effect h).rates_eq ⟨hbitrate, hsetup⟩), fun s t h => ?_⟩
  rw [← rates_eq_iff]
  obtain ⟨hfault, ⟨cmd, -, -, rfl⟩ | ⟨hturn, hmove⟩⟩ := step_cases h
  · obtain ⟨hc, hp, hd, -⟩ := completionRule_ratesKept cmd (Config.draw s.tick) s.ctl
    exact .inl (rates_eq_iff.mpr ⟨hc, hp, hd⟩)
  · rcases hostStep_rates hmove with hkeep | ⟨hready, hrun, hact⟩
    · exact .inl hkeep
    · rcases (hostStep_move hmove).rates_eq_or_configured with hkeep | hconf
      · exact .inl hkeep
      · exact .inr ⟨⟨hfault, hready, hturn⟩, hrun, hconf, hact⟩

/-! ## The host's thread and the interpreter's record (10_state.md R36, R37; 42_bus_driver.md R94;
43_command_interpreter.md R126) -/

/-- The part of the machine invariant that is not the session's. -/
structure ThreadInv (s : State) : Prop where
  interp : InterpInv s.interp
  discarded : ScanDiscarded s
  host : hostOk s = true

theorem inv_iff {s : State} : Inv s ↔ SessionInv s.ctl ∧ ThreadInv s :=
  ⟨fun ⟨hs, hi, hd, hh⟩ => ⟨hs, hi, hd, hh⟩, fun ⟨hs, hi, hd, hh⟩ => ⟨hs, hi, hd, hh⟩⟩

/-! ### The state's operations -/

/-- A host that is ready relies on nothing. -/
theorem hostOk_of_ready {s : State} (h : s.control = .ready) : hostOk s = true := by
  simp [hostOk, h]

theorem hostOk_polling_iff {s : State} {k : Await} (h : s.control = .polling k) :
    hostOk s = true ↔ pointOk k.point s.ctl = true ∧ callerOk k s = true := by
  simp [hostOk, h]

/-- A ready host may change the controller as it likes. -/
theorem ThreadInv.of_ready {s t : State} (hs : ThreadInv s) (hinterp : t.interp = s.interp)
    (hrun : t.running = s.running) (hready : t.control = .ready) : ThreadInv t where
  interp := hinterp ▸ hs.interp
  discarded h := by rw [hinterp]; exact hs.discarded (hrun ▸ h)
  host := hostOk_of_ready hready

theorem initial_interpInv (cmdStr slots values : List Byte) :
    InterpInv (Interp.initial cmdStr slots values) :=
  ⟨rfl, Nat.zero_le _, Nat.zero_le _, Nat.zero_le _⟩

theorem raise_threadInv {s : State} (hs : ThreadInv s) (r : Fault) : ThreadInv (raise r s) :=
  ⟨hs.interp, hs.discarded, hs.host⟩

theorem ret_threadInv {s : State} (hs : ThreadInv s) (v : ReturnValue) : ThreadInv (ret v s) :=
  hs.of_ready rfl rfl rfl

/-- The cursor may move past a character that is there. -/
theorem nextCharacter_threadInv {s : State} (hi : InterpInv s.interp) (hat : AtCharacter s) :
    ThreadInv (nextCharacter s) := by
  obtain ⟨hcount, hread, hwrite, -⟩ := hi
  obtain ⟨hrun, hcursor⟩ := hat
  exact ⟨⟨hcount, hread, hwrite, hcursor⟩, by simp [ScanDiscarded, hrun], hostOk_of_ready rfl⟩

/-- The command is one that a wait at the point is for: once it is accepted, the wait finds what it
relies on. -/
def Point.WaitsFor (p : Point) (cmd : Command) : Prop :=
  ∀ c : Controller, c.configured = true → pointOk p (accept cmd c) = true

/-- Each primitive waits for the command it opens with. -/
theorem PrimitiveOpens.waitsFor {i : Instr} {p : Point} {cmd : Command}
    (h : PrimitiveOpens i p cmd) : p.WaitsFor cmd := by
  intro c hc
  cases h <;> simp [pointOk, hc]

theorem waitsFor_addressedSend (b : Byte) : Point.addressedSend.WaitsFor (.send b) :=
  fun _ hc => hc

theorem waitsFor_retrySend (a : SlaveAddr) (d : Dir) (b : Byte) :
    (Point.retrySend a d).WaitsFor (.send b) :=
  fun _ hc => hc

theorem waitsFor_retryStop (a : SlaveAddr) (d : Dir) : (Point.retryStop a d).WaitsFor .stop :=
  fun _ hc => hc

/-- A wait may begin for the command that its point is for, when its caller is in order. -/
theorem issueAndWait_threadInv {k : Await} {cmd : Command} {s : State} (hs : ThreadInv s)
    (hk : k.point.WaitsFor cmd) (hcaller : callerOk k s = true) :
    ThreadInv (issueAndWait k cmd s) := by
  rcases issueAndWait_cases k cmd s with ⟨hc, -, -, h⟩ | ⟨r, h⟩ <;> rw [h]
  · exact ⟨hs.interp, hs.discarded, (hostOk_polling_iff rfl).mpr ⟨hk s.ctl hc, hcaller⟩⟩
  · exact raise_threadInv hs r

/-- An issue by the host itself does not touch its thread. -/
theorem settle_issue_threadInv {s : State} (hs : ThreadInv s) (hready : s.control = .ready)
    (cmd : Command) : ThreadInv (settle s (issue cmd s)) := by
  cases h : issue cmd s with
  | error r => exact raise_threadInv hs r
  | ok t =>
    obtain ⟨-, -, -, rfl⟩ := issue_ok h
    exact hs.of_ready rfl rfl hready

theorem settle_writeBitrate_threadInv {s : State} (hs : ThreadInv s) (hready : s.control = .ready)
    (v : Word16) : ThreadInv (settle s (writeBitrate v s)) := by
  cases h : writeBitrate v s with
  | error r => exact raise_threadInv hs r
  | ok t =>
    obtain ⟨-, -, rfl⟩ := writeBitrate_ok h
    exact hs.of_ready rfl rfl hready

theorem setup_threadInv {s : State} (hs : ThreadInv s) (base target : Nat) :
    ThreadInv (setup base target s) := by
  unfold setup
  split
  · rename_i p d _
    cases h : writeBitrate (brword p d) s with
    | error r => exact raise_threadInv hs r
    | ok t =>
      obtain ⟨-, -, rfl⟩ := writeBitrate_ok h
      exact hs.of_ready rfl rfl rfl
  · exact ret_threadInv hs _

/-- The end of a run discards `S` (R36, log entry 7). -/
theorem endOfRun_threadInv {s : State} (hs : ThreadInv s) : ThreadInv (endOfRun s) := by
  rcases endOfRun_cases s with ⟨-, h⟩ | ⟨-, -, h⟩ <;> rw [h]
  · exact raise_threadInv hs _
  · exact ⟨initial_interpInv [] _ [], fun _ => rfl, hostOk_of_ready rfl⟩

/-! ### The wait (R94, R96 to R102) -/

/-- A token's primitive is at a character of a run. -/
theorem atCharacter_of_callerOk {p : Point} {s : State} (h : callerOk ⟨p, .interpreter⟩ s = true) :
    AtCharacter s := by
  simp only [callerOk, Bool.and_eq_true, decide_eq_true_eq] at h
  exact h.1

/-- A token's primitive ends in order when what the token does next keeps the indices in range. -/
theorem finish_interpreter_threadInv {s : State} {after : State → Except Fault State}
    (v : ReturnValue) (hs : ThreadInv s)
    (h : ∀ t, after s = .ok t → InterpInv t.interp ∧ AtCharacter t) :
    ThreadInv (finish .interpreter v after s) := by
  unfold finish
  cases e : after s with
  | error r => exact raise_threadInv hs r
  | ok t =>
    obtain ⟨hi, hat⟩ := h t e
    exact nextCharacter_threadInv hi hat

/-- A stored read keeps the indices in range (R107). -/
theorem storeRead_keeps {v : Byte} {s t : State} (h : storeRead v s = .ok t)
    (hi : InterpInv s.interp) (hat : AtCharacter s) : InterpInv t.interp ∧ AtCharacter t := by
  rcases storeRead_cases v s with ⟨hslot, e⟩ | ⟨-, e⟩ <;> rw [e] at h <;> cases h
  obtain ⟨hcount, -, hwrite, hcursor⟩ := hi
  refine ⟨⟨?_, ?_, hwrite, hcursor⟩, hat⟩
  · simpa using hcount
  · simpa using hslot

/-- A primitive that the host program called goes on as the host's. -/
theorem resume_host_threadInv (p : Point) {s : State} (hs : ThreadInv s) :
    ThreadInv (resume ⟨p, .host⟩ s) := by
  cases p with
  | awaitComplete | startCondition | addressedSend | writeByte | stopCondition =>
    exact ret_threadInv hs _
  | addressedStart a d =>
    simp only [resume]
    split
    · exact issueAndWait_threadInv hs (waitsFor_addressedSend _) rfl
    · exact ret_threadInv hs _
  | retryStart a d =>
    simp only [resume]
    split
    · exact issueAndWait_threadInv hs (waitsFor_retrySend a d _) rfl
    · exact issueAndWait_threadInv hs (PrimitiveOpens.retryStart a d).waitsFor rfl
  | retrySend a d =>
    simp only [resume]
    split
    · exact ret_threadInv hs _
    · exact issueAndWait_threadInv hs (waitsFor_retryStop a d) rfl
  | retryStop a d => exact issueAndWait_threadInv hs (PrimitiveOpens.retryStart a d).waitsFor rfl
  | readByte =>
    simp only [resume]
    split
    · exact ret_threadInv hs _
    · exact raise_threadInv hs _

/-- A primitive that a token called is one of the four, and its end is the token's. -/
theorem resume_interpreter_threadInv (p : Point) {s : State} (hs : ThreadInv s)
    (hcaller : callerOk ⟨p, .interpreter⟩ s = true) :
    ThreadInv (resume ⟨p, .interpreter⟩ s) := by
  have hat := atCharacter_of_callerOk hcaller
  cases p with
  | startCondition | stopCondition | writeByte =>
    simp only [resume]
    exact finish_interpreter_threadInv _ hs fun t e => by cases e; exact ⟨hs.interp, hat⟩
  | readByte =>
    simp only [resume]
    split
    · exact finish_interpreter_threadInv _ hs fun t e => storeRead_keeps e hs.interp hat
    · exact raise_threadInv hs _
  | awaitComplete | addressedStart | addressedSend | retryStart | retrySend | retryStop =>
    simp [callerOk] at hcaller

theorem poll_threadInv {k : Await} {s : State} (hs : ThreadInv s) (hk : s.control = .polling k) :
    ThreadInv (poll k s) := by
  cases hi : s.ctl.inflight with
  | some cmd => rwa [poll_busy hi]
  | none =>
    rw [poll_idle hi]
    obtain ⟨-, hcaller⟩ := (hostOk_polling_iff hk).mp hs.host
    obtain ⟨p, caller⟩ := k
    cases caller with
    | host => exact resume_host_threadInv p hs
    | interpreter => exact resume_interpreter_threadInv p hs hcaller

/-- A completion leaves a wait what it reads next: a START obtained has the address byte to come, and a
RECV has filled DATA. -/
theorem pointOk_completionRule {p : Point} {c : Controller} {cmd : Command} (d : Draw)
    (hp : pointOk p c = true) (hi : c.inflight = some cmd) :
    pointOk p { completionRule cmd d c with inflight := none } = true := by
  obtain ⟨hconf, -, -, -⟩ := completionRule_ratesKept cmd d c
  cases p with
  | awaitComplete => rfl
  | startCondition | addressedSend | retrySend | retryStop | writeByte | stopCondition =>
    simp_all [pointOk]
  | addressedStart | retryStart =>
    obtain ⟨hc, rfl⟩ : c.configured = true ∧ cmd = .start := by simpa [pointOk, hi] using hp
    cases hd : d.start <;> simp [pointOk, completionRule, completeStart, startObtained, hc, hd]
  | readByte =>
    obtain rfl | rfl : cmd = .recvAck ∨ cmd = .recvNack := by simpa [pointOk, hi] using hp
    · rfl
    · rfl

theorem complete_threadInv {cmd : Command} {s : State} (d : Draw) (hs : ThreadInv s)
    (hi : s.ctl.inflight = some cmd) : ThreadInv (complete cmd d s) := by
  refine ⟨hs.interp, hs.discarded, ?_⟩
  cases hcontrol : s.control with
  | ready => exact hostOk_of_ready hcontrol
  | polling k =>
    obtain ⟨hpoint, hcaller⟩ := (hostOk_polling_iff hcontrol).mp hs.host
    exact (hostOk_polling_iff (s := complete cmd d s) hcontrol).mpr
       ⟨pointOk_completionRule d hpoint hi, hcaller⟩

/-! ### The tokens (R104 to R125) -/

section Tokens

variable {s : State} (hs : ThreadInv s) (hat : AtCharacter s)
include hs hat

theorem readToken_threadInv {cmd : Command} (hcmd : Point.readByte.WaitsFor cmd) :
    ThreadInv (readToken cmd s) := by
  unfold readToken
  split
  · rename_i hslot
    exact issueAndWait_threadInv hs hcmd (by simp [callerOk, hat.1, hat.2, hslot])
  · exact raise_threadInv hs _

theorem flushToken_threadInv : ThreadInv (flushToken s) := by
  unfold flushToken
  split
  · exact issueAndWait_threadInv hs (PrimitiveOpens.writeByte _).waitsFor
      (by simp [callerOk, hat.1, hat.2])
  · exact nextCharacter_threadInv hs.interp hat

/-- The write value taken is one that is there, so the index stays in range (R119). -/
theorem writeToken_threadInv (hready : s.control = .ready) : ThreadInv (writeToken s) := by
  unfold writeToken
  split
  · exact raise_threadInv hs _
  · rename_i v hv
    have hvalue := (List.getElem?_eq_some_iff.mp hv).1
    obtain ⟨hcount, hread, -, hcursor⟩ := hs.interp
    refine flushToken_threadInv ⟨⟨hcount, hread, hvalue, hcursor⟩, ?_, hostOk_of_ready hready⟩ hat
    simp [ScanDiscarded, hat.1]

theorem TokenEffect.threadInv {t : State} (h : TokenEffect s t) (hready : s.control = .ready) :
    ThreadInv t := by
  cases h with
  | start =>
    exact issueAndWait_threadInv hs PrimitiveOpens.startCondition.waitsFor
      (by simp [callerOk, hat.1, hat.2])
  | stop =>
    exact issueAndWait_threadInv hs PrimitiveOpens.stopCondition.waitsFor
      (by simp [callerOk, hat.1, hat.2])
  | radix | delay | ignored => exact nextCharacter_threadInv hs.interp hat
  | readMore => exact readToken_threadInv hs hat PrimitiveOpens.requestMore.waitsFor
  | readLast => exact readToken_threadInv hs hat PrimitiveOpens.lastByte.waitsFor
  | write => exact writeToken_threadInv hs hat hready
  | delimit => exact flushToken_threadInv hs hat
  | digit dv => unfold digitToken; split <;> exact nextCharacter_threadInv hs.interp hat

end Tokens

/-! ### Instructions, moves and steps -/

/-- An instruction keeps the invariant of a ready host; a character, when the run is at it. -/
theorem InstrEffect.threadInv {i : Instr} {s t : State} (h : InstrEffect s i t) (hs : ThreadInv s)
    (hready : s.control = .ready) (hat : ∀ b, encode i = .character b → AtCharacter s) :
    ThreadInv t := by
  cases h with
  | reserved w => exact raise_threadInv hs _
  | command cmd => exact settle_issue_threadInv hs hready cmd
  | bitrate p d => exact settle_writeBitrate_threadInv hs hready _
  | setup base target => exact setup_threadInv hs base target
  | clock => exact ret_threadInv hs _
  | primitive hopens => exact issueAndWait_threadInv hs hopens.waitsFor rfl
  | run => exact ⟨initial_interpInv _ _ _, nofun, hostOk_of_ready rfl⟩
  | token hi ht => exact ht.threadInv hs (hat _ hi) hready

/-- The host's move keeps the invariant, or is an instruction that does. -/
def Fetched.KeepsThreadInv : Fetched → Prop
  | .instr i t => ThreadInv t ∧ t.control = .ready ∧ ∀ b, encode i = .character b → AtCharacter t
  | .other t => ThreadInv t

theorem perform_keepsThreadInv (a : Action) {s : State} (hs : ThreadInv s)
    (hready : s.control = .ready) : (perform a s).KeepsThreadInv := by
  cases a with
  | awaitComplete => exact ⟨hs.interp, hs.discarded, rfl⟩
  | regRead off =>
    simp only [perform]
    split
    · exact ret_threadInv hs _
    · exact raise_threadInv hs _
  | call f => exact ⟨hs, hready, fun b h => by rw [encode_decodeCall] at h; cases h⟩
  | regWrite off v =>
    rcases perform_regWrite_cases off v s with ⟨-, h⟩ | ⟨-, p, d, h⟩ | ⟨e, -, h⟩ <;> rw [h]
    · obtain ⟨w, hw⟩ := encode_decodeCommand v
      exact ⟨hs, hready, fun b hb => by rw [hw] at hb; cases hb⟩
    · exact ⟨hs, hready, fun b hb => by cases hb⟩
    · cases e with
      | unmappedRegister | readOnlyRegister => exact raise_threadInv hs _
      | reservedField => exact settle_writeBitrate_threadInv hs hready v

theorem fetch_keepsThreadInv {s : State} (hs : ThreadInv s) (hready : s.control = .ready) :
    (fetch s).KeepsThreadInv := by
  rcases fetch_cases s with
    ⟨b, hat, -, h⟩ | ⟨-, -, h⟩ | ⟨-, -, h⟩ | ⟨a, rest, -, -, h⟩ <;> rw [h]
  · exact ⟨hs, hready, fun _ _ => hat⟩
  · exact endOfRun_threadInv hs
  · exact hs
  · exact perform_keepsThreadInv a (hs.of_ready rfl rfl hready) hready

theorem hostStep_threadInv {s t : State} (hs : ThreadInv s) (h : hostStep s = .next t) :
    ThreadInv t := by
  rcases hostStep_cases h with ⟨k, hk, rfl⟩ | ⟨hready, hnext⟩
  · exact poll_threadInv hs hk
  · have hkeep := fetch_keepsThreadInv hs hready
    rcases hnext with ⟨i, u, hfetch, hexec⟩ | hfetch <;> rw [hfetch] at hkeep
    · obtain ⟨hu, hready', hat⟩ := hkeep
      exact (exec_effect hexec).threadInv hu hready' hat
    · exact hkeep

/-- The free values are no part of the invariant. -/
theorem advance_threadInv {s : State} (hs : ThreadInv s) : ThreadInv (advance s) :=
  ⟨hs.interp, hs.discarded, hs.host⟩

theorem step_threadInv {s t : State} (hs : ThreadInv s) (h : step s = .next t) : ThreadInv t := by
  obtain ⟨-, ⟨cmd, hi, -, rfl⟩ | ⟨-, hmove⟩⟩ := step_cases h
  · exact complete_threadInv _ (advance_threadInv hs) hi
  · exact hostStep_threadInv (advance_threadInv hs) hmove

/-- Settles O35: the session's part is O34, and the thread's part is kept by a completion and by every
move of the host. -/
theorem machineInvariantIsKept : Obligations.MachineInvariantIsKept := by
  intro s t hs h
  obtain ⟨hsession, hthread⟩ := inv_iff.mp hs
  exact inv_iff.mpr ⟨sessionInvariantIsKept s t hsession h, step_threadInv hthread h⟩

/-- Settles O2: at reset nothing is in flight, and `S` is the discarded record (log entry 7). -/
theorem resetMeetsEveryInvariant : Obligations.ResetMeetsEveryInvariant :=
  inv_iff.mpr ⟨(sessionInv_of_idle rfl).mpr ⟨nofun, nofun, fun _ => rfl⟩,
    initial_interpInv [] [] [], fun _ => rfl, hostOk_of_ready rfl⟩

end Sys2Proof.Machine

namespace Sys2Proof.Machine

/-! ## What an instruction leaves alone outside the controller (20_memory.md R42, R47 to R49;
43_command_interpreter.md R104, R107) -/

/-- The three byte sequences of a run, and how far into the slots its reads have come. -/
def Interp.sequences (x : Interp) : List Byte × List Byte × List Byte × Nat × Nat :=
  (x.cmdStr, x.readTargets, x.writeValues, x.readIdx, x.readCount)

/-- The host program and the pace of the free values. -/
def State.pace (s : State) : List Action × Agent × Nat := (s.program, s.turn, s.tick)

/-- What every instruction but `run` keeps. -/
def State.frame (s : State) :
    (List Action × Agent × Nat) × Bool × List Byte × List Byte × List Byte × Nat × Nat :=
  (s.pace, s.running, s.interp.sequences)

theorem sequences_eq_iff {x y : Interp} :
    y.sequences = x.sequences ↔ y.cmdStr = x.cmdStr ∧ y.readTargets = x.readTargets
      ∧ y.writeValues = x.writeValues ∧ y.readIdx = x.readIdx ∧ y.readCount = x.readCount := by
  simp [Interp.sequences]

theorem pace_eq_iff {s t : State} :
    t.pace = s.pace ↔ t.program = s.program ∧ t.turn = s.turn ∧ t.tick = s.tick := by
  simp [State.pace]

theorem frame_eq_iff {s t : State} :
    t.frame = s.frame ↔ t.pace = s.pace ∧ t.running = s.running
      ∧ t.interp.sequences = s.interp.sequences := by
  simp [State.frame]

@[simp] theorem raise_frame (r : Fault) (s : State) : (raise r s).frame = s.frame := rfl

@[simp] theorem ret_frame (v : ReturnValue) (s : State) : (ret v s).frame = s.frame := rfl

@[simp] theorem nextCharacter_frame (s : State) : (nextCharacter s).frame = s.frame := rfl

/-- An issue writes the controller alone. -/
@[simp] theorem settle_issue_frame (cmd : Command) (s : State) :
    (settle s (issue cmd s)).frame = s.frame := by
  cases h : issue cmd s with
  | error r => rfl
  | ok t => obtain ⟨-, -, -, rfl⟩ := issue_ok h; rfl

@[simp] theorem issueAndWait_frame (k : Await) (cmd : Command) (s : State) :
    (issueAndWait k cmd s).frame = s.frame := by
  rcases issueAndWait_cases k cmd s with ⟨-, -, -, h⟩ | ⟨r, h⟩ <;> (rw [h]; rfl)

/-- A bit-rate write writes the controller alone. -/
@[simp] theorem settle_writeBitrate_frame (v : Word16) (s : State) :
    (settle s (writeBitrate v s)).frame = s.frame := by
  cases h : writeBitrate v s with
  | error r => rfl
  | ok t => obtain ⟨-, -, rfl⟩ := writeBitrate_ok h; rfl

@[simp] theorem setup_frame (base target : Nat) (s : State) :
    (setup base target s).frame = s.frame := by
  unfold setup
  split
  · rename_i p d _
    cases h : writeBitrate (brword p d) s with
    | error r => rfl
    | ok t => obtain ⟨-, -, rfl⟩ := writeBitrate_ok h; rfl
  · rfl

/-- The slot of a read token is written when its primitive returns, not by the token (R107). -/
@[simp] theorem readToken_frame (cmd : Command) (s : State) :
    (readToken cmd s).frame = s.frame := by
  unfold readToken
  split
  · exact issueAndWait_frame _ _ _
  · rfl

@[simp] theorem flushToken_frame (s : State) : (flushToken s).frame = s.frame := by
  unfold flushToken
  split
  · exact issueAndWait_frame _ _ _
  · rfl

/-- A write token moves `writeIdx` alone, which is no part of the frame (R119). -/
@[simp] theorem writeToken_frame (s : State) : (writeToken s).frame = s.frame := by
  unfold writeToken
  split
  · rfl
  · exact flushToken_frame _

@[simp] theorem digitToken_frame (dv : Nat) (s : State) : (digitToken dv s).frame = s.frame := by
  unfold digitToken
  split <;> rfl

theorem TokenEffect.frame_eq {s t : State} (h : TokenEffect s t) : t.frame = s.frame := by
  cases h with
  | start | stop => exact issueAndWait_frame _ _ s
  | radix | delay | ignored => rfl
  | readMore | readLast => exact readToken_frame _ s
  | write => exact writeToken_frame s
  | delimit => exact flushToken_frame s
  | digit dv => exact digitToken_frame dv s

/-- Every instruction but `run` keeps the frame, and `run` keeps the pace. -/
theorem InstrEffect.frame_eq_or_run {i : Instr} {s t : State} (h : InstrEffect s i t) :
    t.frame = s.frame ∨ t.pace = s.pace ∧ ∃ c r w, i = .run c r w := by
  cases h with
  | command cmd => exact .inl (settle_issue_frame cmd s)
  | reserved | clock => exact .inl rfl
  | bitrate p d => exact .inl (settle_writeBitrate_frame _ s)
  | primitive => exact .inl (issueAndWait_frame _ _ s)
  | setup base target => exact .inl (setup_frame base target s)
  | run c r w => exact .inr ⟨rfl, c, r, w, rfl⟩
  | token _ ht => exact .inl ht.frame_eq

/-- Settles O33: every instruction keeps the pace, and every instruction but `run` the whole frame. -/
theorem instructionFrame : Obligations.InstructionFrame := by
  intro i s t h
  have hframe := (exec_effect h).frame_eq_or_run
  have hpace : t.pace = s.pace := hframe.elim (fun hf => (frame_eq_iff.mp hf).1) (·.1)
  obtain ⟨hprogram, hturn, htick⟩ := pace_eq_iff.mp hpace
  refine ⟨hprogram, hturn, htick, fun hrun => ?_⟩
  rcases hframe with hf | ⟨-, c, r, w, rfl⟩
  · obtain ⟨-, hrunning, hseq⟩ := frame_eq_iff.mp hf
    exact ⟨hrunning, sequences_eq_iff.mp hseq⟩
  · exact absurd rfl (hrun c r w)

/-! ## What a step writes in a run (20_memory.md R42, R47 to R49) -/

/-- The run goes on, and of the three sequences only the slot at `readIdx` may have changed. -/
structure WritesOnlyNextSlot (s t : State) : Prop where
  running : t.running = s.running
  cmdStr : t.interp.cmdStr = s.interp.cmdStr
  writeValues : t.interp.writeValues = s.interp.writeValues
  length : t.interp.readTargets.length = s.interp.readTargets.length
  others : ∀ j, j ≠ s.interp.readIdx → t.interp.readTargets[j]? = s.interp.readTargets[j]?

theorem WritesOnlyNextSlot.of_frame_eq {s t : State} (h : t.frame = s.frame) :
    WritesOnlyNextSlot s t := by
  obtain ⟨-, hrun, hseq⟩ := frame_eq_iff.mp h
  obtain ⟨hcmd, hslots, hvalues, -, -⟩ := sequences_eq_iff.mp hseq
  exact ⟨hrun, hcmd, hvalues, by rw [hslots], fun _ _ => by rw [hslots]⟩

/-- A stored read fills the slot at `readIdx` (R107). -/
theorem storeRead_writesOnlyNextSlot {v : Byte} {s t : State} (h : storeRead v s = .ok t) :
    WritesOnlyNextSlot s t := by
  rcases storeRead_cases v s with ⟨-, e⟩ | ⟨-, e⟩ <;> rw [e] at h <;> cases h
  exact ⟨rfl, rfl, rfl, List.length_set, fun _ hj => List.getElem?_set_ne hj.symm⟩

/-- The end of a primitive writes what its caller writes next, and nothing else of the sequences. -/
theorem finish_writesOnlyNextSlot (caller : Caller) (v : ReturnValue)
    {after : State → Except Fault State} {s : State}
    (h : ∀ t, after s = .ok t → WritesOnlyNextSlot s t) :
    WritesOnlyNextSlot s (finish caller v after s) := by
  cases caller with
  | host => exact .of_frame_eq rfl
  | interpreter =>
    unfold finish
    cases e : after s with
    | error r => exact .of_frame_eq rfl
    | ok t =>
      obtain ⟨hrun, hcmd, hvalues, hlength, hothers⟩ := h t e
      exact ⟨hrun, hcmd, hvalues, hlength, hothers⟩

/-- What follows a wait issues a command or ends its primitive; only `readByte` stores a byte. -/
theorem resume_writesOnlyNextSlot (k : Await) (s : State) : WritesOnlyNextSlot s (resume k s) := by
  obtain ⟨p, caller⟩ := k
  have hfinish : ∀ v, WritesOnlyNextSlot s (finish caller v .ok s) := fun v =>
    finish_writesOnlyNextSlot _ _ fun t e => by cases e; exact .of_frame_eq rfl
  have hissue : ∀ k cmd, WritesOnlyNextSlot s (issueAndWait k cmd s) := fun k cmd =>
    .of_frame_eq (issueAndWait_frame k cmd s)
  cases p with
  | awaitComplete | startCondition | addressedSend | stopCondition => exact hfinish _
  | retryStop => exact hissue _ _
  | addressedStart | retryStart | retrySend =>
    simp only [resume]
    split <;> simp only [hfinish, hissue]
  | writeByte =>
    simp only [resume]
    exact finish_writesOnlyNextSlot _ _ fun t e => by cases e; exact .of_frame_eq rfl
  | readByte =>
    simp only [resume]
    split
    · exact finish_writesOnlyNextSlot _ _ fun t e => storeRead_writesOnlyNextSlot e
    · exact .of_frame_eq rfl

theorem poll_writesOnlyNextSlot (k : Await) (s : State) : WritesOnlyNextSlot s (poll k s) := by
  cases hi : s.ctl.inflight with
  | some cmd => rw [poll_busy hi]; exact .of_frame_eq rfl
  | none => rw [poll_idle hi]; exact resume_writesOnlyNextSlot k s

/-- A character is never the instruction `run`, so it keeps the frame. -/
theorem exec_decodeToken_frame {b : Byte} {s t : State} (h : exec (decodeToken b) s = .next t) :
    t.frame = s.frame := by
  rcases (exec_effect h).frame_eq_or_run with hframe | ⟨-, c, r, w, hrun⟩
  · exact hframe
  · have hb := encode_decodeToken b
    rw [hrun] at hb
    cases hb

/-- The run ends, and only the slots are left of `S` (R36, log entry 7). -/
def EndsRun (s t : State) : Prop :=
  t.running = false ∧ t.interp = Interp.outside s.interp.readTargets

theorem endOfRun_keeps_or_endsRun (s : State) :
    WritesOnlyNextSlot s (endOfRun s) ∨ EndsRun s (endOfRun s) := by
  rcases endOfRun_cases s with ⟨-, h⟩ | ⟨-, -, h⟩ <;> rw [h]
  · exact .inl (.of_frame_eq rfl)
  · exact .inr ⟨rfl, rfl⟩

/-- In a run the host polls, runs a character, or is at the end of the command string. -/
theorem hostStep_keeps_or_endsRun {s t : State} (hrun : s.running = true)
    (h : hostStep s = .next t) : WritesOnlyNextSlot s t ∨ EndsRun s t := by
  rcases hostStep_cases h with ⟨k, -, rfl⟩ | ⟨-, hnext⟩
  · exact .inl (poll_writesOnlyNextSlot k s)
  · rcases fetch_cases s with
      ⟨b, -, -, hf⟩ | ⟨-, -, hf⟩ | ⟨hout, -, -⟩ | ⟨_, _, hout, -, -⟩
    · simp only [hf, Fetched.instr.injEq, reduceCtorEq, or_false] at hnext
      obtain ⟨_, _, ⟨rfl, rfl⟩, hexec⟩ := hnext
      exact .inl (.of_frame_eq (exec_decodeToken_frame hexec))
    · obtain rfl : endOfRun s = t := by simpa [hf] using hnext
      exact endOfRun_keeps_or_endsRun s
    · simp [hrun] at hout
    · simp [hrun] at hout

/-- A completion writes none of the sequences, and the free values are no part of them. -/
theorem step_keeps_or_endsRun {s t : State} (hrun : s.running = true) (h : step s = .next t) :
    WritesOnlyNextSlot s t ∨ EndsRun s t := by
  obtain ⟨-, ⟨cmd, -, -, rfl⟩ | ⟨-, hmove⟩⟩ := step_cases h
  · exact .inl ⟨rfl, rfl, rfl, rfl, fun _ _ => rfl⟩
  · refine (hostStep_keeps_or_endsRun (s := advance s) hrun hmove).imp_left fun hw => ?_
    exact ⟨hw.running, hw.cmdStr, hw.writeValues, hw.length, hw.others⟩

/-- Settles O32: a step of a run goes on with it and writes at most the next slot, or ends it. -/
theorem runWritesOnlyTheNextSlot : Obligations.RunWritesOnlyTheNextSlot := by
  intro s t hrun h
  rcases step_keeps_or_endsRun hrun h with hw | ⟨hend, hinterp⟩
  · exact ⟨fun _ => ⟨hw.cmdStr, hw.writeValues⟩, fun hend => by simp [hw.running, hrun] at hend,
      hw.length, hw.others⟩
  · refine ⟨fun hgo => by simp [hend] at hgo, fun _ => hinterp, ?_, fun j _ => ?_⟩ <;>
      rw [hinterp, outside_readTargets]

/-! ## Register reads, a case each (20_memory.md R43) -/

section RegisterRead

variable {codes : Status → Byte} {c : Controller}

/-- Nothing is in flight exactly when the controller is not busy (R26). -/
theorem not_busy_eq (c : Controller) : (!c.busy) = decide (c.inflight = none) := by
  cases h : c.inflight <;> simp [Controller.busy, h]

theorem regRead_unmapped {off : Offset} (h : 5 ≤ off.toNat) :
    regRead codes off c = .error .unmappedRegister := if_pos h

theorem regRead_cmd : regRead codes 0 c = .ok 0 := rfl

theorem regRead_flags : regRead codes 4 c = .ok (flagsWord c) := rfl

theorem regRead_busy {off : Offset} (hoff : off = 1 ∨ off = 2) (hi : c.inflight ≠ none) :
    regRead codes off c = .error .readWhileBusy := by
  have hbusy : c.busy = true := Option.isSome_iff_ne_none.mpr hi
  rcases hoff with rfl | rfl <;> simp [regRead, hbusy]

theorem regRead_status (hi : c.inflight = none) :
    regRead codes 1 c = .ok ((codes c.status).setWidth 16) := by
  simp [regRead, Controller.busy, hi]

theorem regRead_data_unwritten (hi : c.inflight = none) (hd : c.data = none) :
    regRead codes 2 c = .error .unwrittenRegister := by
  simp [regRead, Controller.busy, hi, hd]

theorem regRead_data {b : Byte} (hi : c.inflight = none) (hd : c.data = some b) :
    regRead codes 2 c = .ok (b.setWidth 16) := by
  simp [regRead, Controller.busy, hi, hd]

theorem regRead_bitrate_unwritten (hc : c.configured = false) :
    regRead codes 3 c = .error .unwrittenRegister := by
  simp [regRead, hc]

theorem regRead_bitrate (hc : c.configured = true) :
    regRead codes 3 c = .ok (brword c.prescalerExponent c.divisor) := by
  simp [regRead, hc]

end RegisterRead

/-! ## The host's next move as a step (20_memory.md R44, R136) -/

/-- What the step is that makes a fetched move. -/
def Fetched.outcome : Fetched → Host.Outcome State Fault Refusal
  | .instr i t => exec i t
  | .other t => .next t

theorem hostStep_of_ready {s : State} (h : s.control = .ready) :
    hostStep s = (fetch s).outcome := by
  unfold hostStep
  rw [h]
  rfl

theorem step_of_hostMoves {s : State} (h : HostMoves s) : step s = (fetch (advance s)).outcome := by
  obtain ⟨hfault, hready, hmoves⟩ := h
  have hstep : step s = hostStep (advance s) := by
    unfold step
    rw [hfault]
    cases hi : s.ctl.inflight with
    | none => rfl
    | some cmd =>
      have hturn : s.turn = .host := by simpa [hi] using hmoves
      rw [hturn]
  rw [hstep]
  exact hostStep_of_ready hready

/-- Outside a run the step performs the action at the head of the host program. -/
theorem step_performs {s : State} {a : Action} {rest : List Action} (h : HostMoves s)
    (hrun : s.running = false) (hprog : s.program = a :: rest) :
    step s = (perform a { advance s with program := rest }).outcome := by
  have hfetch : fetch (advance s) = perform a { advance s with program := rest } := by
    simp [fetch, hrun, hprog]
  rw [step_of_hostMoves h, hfetch]

/-- A return to a host that is ready writes the returned value alone. -/
theorem ret_of_ready {s : State} (v : ReturnValue) (h : s.control = .ready) :
    ret v s = { s with returned := some v } := by
  unfold ret
  rw [← h]

section ReadMove

variable {s : State} {off : Offset} {rest : List Action} (hmoves : HostMoves s)
  (hrun : s.running = false) (hprog : s.program = .regRead off :: rest)
include hmoves hrun hprog

/-- A read that has a word returns it, and changes nothing else. -/
theorem step_regRead_ok {v : Word16} (hv : regRead statusCode off s.ctl = .ok v) :
    step s = .next { advance s with program := rest, returned := some (.word v) } := by
  have ⟨_, hready, _⟩ := hmoves
  have hperform : perform (.regRead off) { advance s with program := rest }
      = .other (ret (.word v) { advance s with program := rest }) := by simp [perform, hv]
  rw [step_performs hmoves hrun hprog, hperform]
  exact congrArg Host.Outcome.next (ret_of_ready (s := { advance s with program := rest }) _ hready)

/-- A read that has none raises its fault. -/
theorem step_regRead_error {r : Fault} (hr : regRead statusCode off s.ctl = .error r) :
    step s = .next (raise r { advance s with program := rest }) := by
  have hperform : perform (.regRead off) { advance s with program := rest }
      = .other (raise r { advance s with program := rest }) := by simp [perform, hr]
  rw [step_performs hmoves hrun hprog, hperform]
  rfl

end ReadMove

/-- Settles O4: the cases of the read, and the step that makes it. -/
theorem registerReadCases : Obligations.RegisterReadCases := by
  refine ⟨fun codes c off => ⟨regRead_unmapped, ?_, ?_, regRead_busy, ?_, ?_, ?_, ?_, ?_⟩,
    fun s off rest hmoves hrun hprog =>
      ⟨fun _ => step_regRead_ok hmoves hrun hprog, fun _ => step_regRead_error hmoves hrun hprog⟩⟩
  · rintro rfl; exact regRead_cmd
  · rintro rfl; rw [← not_busy_eq]; exact regRead_flags
  · rintro rfl; exact regRead_status
  · rintro rfl; exact regRead_data_unwritten
  · rintro b rfl; exact regRead_data
  · rintro rfl; exact regRead_bitrate_unwritten
  · rintro rfl; exact regRead_bitrate

/-! ## Register writes, a case each (20_memory.md R44) -/

theorem decodeWrite_cmd (v : Word16) : decodeWrite 0 v = .ok (decodeCommand v) := rfl

theorem decodeWrite_unmapped {off : Offset} (h : 5 ≤ off.toNat) (v : Word16) :
    decodeWrite off v = .error .unmappedRegister := by
  have h0 : off ≠ 0 := by rintro rfl; simp at h
  have h3 : off ≠ 3 := by rintro rfl; simp at h
  simp only [decodeWrite, if_neg h0, if_neg h3, if_pos h]

theorem decodeWrite_readOnly {off : Offset} (h : off = 1 ∨ off = 2 ∨ off = 4) (v : Word16) :
    decodeWrite off v = .error .readOnlyRegister := by
  rcases h with rfl | rfl | rfl <;> rfl

theorem decodeWrite_bitrate {v : Word16} (h : reservedField v = 0) :
    decodeWrite 3 v = .ok (.bitrateWrite (prescalerField v) (lowByte v)) := by
  simp [decodeWrite, h]

theorem decodeWrite_bitrate_reserved {v : Word16} (h : reservedField v ≠ 0) :
    decodeWrite 3 v = .error .reservedField := by
  simpa [decodeWrite] using h

/-- A word with its reserved bits clear is the bit-rate word of its two fields (R65). -/
theorem brword_fields {v : Word16} (h : reservedField v = 0) :
    brword (prescalerField v) (lowByte v) = v := by
  unfold brword
  rw [← h]
  unfold reservedField prescalerField lowByte
  rw [BitVec.extractLsb'_append_extractLsb'_eq_extractLsb' (by rfl),
    BitVec.extractLsb'_append_extractLsb'_eq_extractLsb' (by rfl)]
  exact BitVec.extractLsb'_eq_self

theorem perform_regWrite_ok {off : Offset} {v : Word16} {i : Instr} (s : State)
    (h : decodeWrite off v = .ok i) : perform (.regWrite off v) s = .instr i s := by
  simp [perform, decode, h]

theorem perform_regWrite_error {off : Offset} {v : Word16} {e : Reject} (s : State)
    (h : decodeWrite off v = .error e) :
    perform (.regWrite off v) s = .other (rejectedWrite e v s) := by
  simp [perform, decode, h]

/-- A write to BITRATE is write-bitrate, whether its word is a bit-rate word or not (R44, R79). -/
theorem perform_bitrate_outcome {s : State} (v : Word16) (h : s.ctl.fault = none) :
    (perform (.regWrite 3 v) s).outcome = .next (settle s (writeBitrate v s)) := by
  by_cases hreserved : reservedField v = 0
  · rw [perform_regWrite_ok s (decodeWrite_bitrate hreserved)]
    have hexec : exec (.bitrateWrite (prescalerField v) (lowByte v)) s
        = act s (settle s (writeBitrate (brword (prescalerField v) (lowByte v)) s)) := rfl
    rw [Fetched.outcome, hexec, brword_fields hreserved, act_of_no_fault h]
  · rw [perform_regWrite_error s (decodeWrite_bitrate_reserved hreserved)]
    rfl

/-- Settles O5: the write is decoded, and the step runs the instruction or the rejection. -/
theorem registerWriteCases : Obligations.RegisterWriteCases := by
  intro s off v rest hmoves hrun hprog
  rw [step_performs hmoves hrun hprog]
  refine ⟨fun hoff => ?_, fun hoff => ?_, ?_, ?_⟩
  · rw [perform_regWrite_error _ (decodeWrite_unmapped hoff v)]
    rfl
  · rw [perform_regWrite_error _ (decodeWrite_readOnly hoff v)]
    rfl
  · rintro rfl
    rw [perform_regWrite_ok _ (decodeWrite_cmd v)]
    rfl
  · rintro rfl
    exact perform_bitrate_outcome v hmoves.1

end Sys2Proof.Machine

namespace Sys2Proof.Machine

/-! ## Bit fields (30_encoding.md R61, R63, R65) -/

/-- A concatenation as a number. -/
theorem toNat_append_eq_add {m n : Nat} (x : BitVec m) (y : BitVec n) :
    (x ++ y).toNat = x.toNat * 2 ^ n + y.toNat := by
  rw [BitVec.toNat_append, ← Nat.shiftLeft_add_eq_or_of_lt y.isLt, Nat.shiftLeft_eq]

@[simp] theorem lowByte_brword (p : BitVec 2) (d : Byte) : lowByte (brword p d) = d :=
  BitVec.extractLsb'_append_eq_right

@[simp] theorem prescalerField_brword (p : BitVec 2) (d : Byte) :
    prescalerField (brword p d) = p := by
  unfold prescalerField brword
  rw [BitVec.extractLsb'_append_eq_of_le (Nat.le_refl 8)]
  exact BitVec.extractLsb'_append_eq_right

@[simp] theorem reservedField_brword (p : BitVec 2) (d : Byte) :
    reservedField (brword p d) = 0 := by
  unfold reservedField brword
  rw [BitVec.extractLsb'_append_eq_of_le (by decide)]
  exact BitVec.extractLsb'_append_eq_left

theorem brword_toNat (p : BitVec 2) (d : Byte) :
    (brword p d).toNat = p.toNat * 256 + d.toNat := by
  have hzero : (0 : BitVec 6).toNat = 0 := rfl
  rw [brword, toNat_append_eq_add, toNat_append_eq_add, hzero]
  omega

@[simp] theorem lowByte_sendWord (b : Byte) : lowByte (sendWord b) = b :=
  BitVec.extractLsb'_append_eq_right

@[simp] theorem highByte_sendWord (b : Byte) : (sendWord b).extractLsb' 8 8 = 0x02 :=
  BitVec.extractLsb'_append_eq_left

/-- The mask of SEND tests the high byte, and the low byte is then the operand (R61). -/
theorem mask_send_iff {w : Word16} : w &&& 0xFF00 = 0x0200 ↔ w = sendWord (lowByte w) := by
  constructor
  · intro h
    have hhigh : w.extractLsb' 8 8 = 0x02 := by
      have hmask := congrArg (BitVec.extractLsb' 8 8) h
      rw [BitVec.extractLsb'_and] at hmask
      exact BitVec.and_allOnes.symm.trans hmask
    calc w = w.extractLsb' 0 16 := BitVec.extractLsb'_eq_self.symm
      _ = w.extractLsb' 8 8 ++ lowByte w :=
        (BitVec.extractLsb'_append_extractLsb'_eq_extractLsb' (len₁ := 8) (len₂ := 8) rfl).symm
      _ = sendWord (lowByte w) := congrArg (· ++ lowByte w) hhigh
  · intro h
    calc w &&& 0xFF00 = ((0x02 : Byte) ++ lowByte w) &&& ((0xFF : Byte) ++ (0 : Byte)) :=
          congrArg (· &&& 0xFF00) h
      _ = ((0x02 : Byte) &&& 0xFF) ++ (lowByte w &&& 0) := BitVec.and_append
      _ = ((0x02 : Byte) &&& 0xFF) ++ (0 : Byte) := congrArg (_ ++ ·) BitVec.and_zero
      _ = 0x0200 := rfl

theorem sendWord_eq_or (b : Byte) : sendWord b = 0x0200 ||| b.setWidth 16 :=
  BitVec.append_def _ _

/-! ## Command words (30_encoding.md R60, R61) -/

theorem isCommandWord_eq_false_iff {w : Word16} : isCommandWord w = false ↔
    (((w ≠ 0x0100 ∧ w &&& 0xFF00 ≠ 0x0200) ∧ w ≠ 0x0300) ∧ w ≠ 0x0400) ∧ w ≠ 0x0500 := by
  simp only [isCommandWord, Bool.or_eq_false_iff, beq_eq_false_iff_ne]

/-- The instruction a word written to CMD spells: the rows of R60, and the reserved row for a word that
matches none of them. -/
inductive CommandWordSpells : Word16 → Instr → Prop where
  | start : CommandWordSpells 0x0100 .start
  | send (b : Byte) : CommandWordSpells (sendWord b) (.send b)
  | recvAck : CommandWordSpells 0x0300 .recvAck
  | recvNack : CommandWordSpells 0x0400 .recvNack
  | stop : CommandWordSpells 0x0500 .stop
  | reserved {w : Word16} (h : isCommandWord w = false) :
      CommandWordSpells w (.reservedCommandWord w)

theorem commandWordSpells_decodeCommand (w : Word16) : CommandWordSpells w (decodeCommand w) := by
  unfold decodeCommand
  split_ifs with h1 h2 h3 h4 h5
  · exact h1 ▸ .start
  · have hspells := CommandWordSpells.send (lowByte w)
    rwa [← mask_send_iff.mp h2] at hspells
  · exact h3 ▸ .recvAck
  · exact h4 ▸ .recvNack
  · exact h5 ▸ .stop
  · exact .reserved (isCommandWord_eq_false_iff.mpr ⟨⟨⟨⟨h1, h2⟩, h3⟩, h4⟩, h5⟩)

@[simp] theorem decodeCommand_sendWord (b : Byte) : decodeCommand (sendWord b) = .send b := by
  have hmask : sendWord b &&& 0xFF00 = 0x0200 := mask_send_iff.mpr (by rw [lowByte_sendWord])
  have hstart : sendWord b ≠ 0x0100 := fun h =>
    absurd ((highByte_sendWord b).symm.trans (congrArg (BitVec.extractLsb' 8 8) h)) (by decide)
  rw [decodeCommand, if_neg hstart, if_pos hmask, lowByte_sendWord]

theorem decodeCommand_of_not_commandWord {w : Word16} (h : isCommandWord w = false) :
    decodeCommand w = .reservedCommandWord w := by
  obtain ⟨⟨⟨⟨h1, h2⟩, h3⟩, h4⟩, h5⟩ := isCommandWord_eq_false_iff.mp h
  simp only [decodeCommand, if_neg h1, if_neg h2, if_neg h3, if_neg h4, if_neg h5]

theorem wellFormed_reservedCommandWord_iff {w : Word16} :
    (Instr.reservedCommandWord w).WellFormed ↔ isCommandWord w = false :=
  iff_of_eq (Bool.not_eq_true' _)

/-- What a command word spells, it presents. -/
theorem CommandWordSpells.encode_eq {w : Word16} {i : Instr} (h : CommandWordSpells w i) :
    encode i = .write 0 w := by
  cases h <;> rfl

theorem CommandWordSpells.wellFormed {w : Word16} {i : Instr} (h : CommandWordSpells w i) :
    i.WellFormed := by
  cases h with
  | reserved hw => exact wellFormed_reservedCommandWord_iff.mpr hw
  | _ => rfl

/-- A word that is not reserved has bits 15 to 11 clear, and an operator: SEND, or one of the four that
take no operand, with a zero operand (R61). -/
theorem CommandWordSpells.reserved_or_fields {w : Word16} {i : Instr} (h : CommandWordSpells w i) :
    i = .reservedCommandWord w
    ∨ w.extractLsb' 11 5 = 0 ∧ (w.extractLsb' 8 3 = 2
        ∨ w.extractLsb' 0 8 = 0 ∧ w.extractLsb' 8 3 ∈ [1, 3, 4, 5]) := by
  cases h with
  | send b =>
    have hhigh : (sendWord b).extractLsb' 11 5 = 0 :=
      BitVec.extractLsb'_append_eq_of_le (by decide)
    have hop : (sendWord b).extractLsb' 8 3 = 2 := BitVec.extractLsb'_append_eq_of_le (by decide)
    exact .inr ⟨hhigh, .inl hop⟩
  | reserved => exact .inl rfl
  | _ => exact .inr (by decide)

theorem exec_reservedCommandWord {s : State} (w : Word16) (h : s.ctl.fault = none) :
    exec (.reservedCommandWord w) s = .next { s with ctl := { s.ctl with
      fault := some .reservedCommand } } := by
  have hraise : raise .reservedCommand s
      = { s with ctl := { s.ctl with fault := some .reservedCommand } } := by simp [raise, h]
  exact (act_of_no_fault h).trans (congrArg _ hraise)

/-! ## Characters (30_encoding.md R67) -/

theorem wellFormed_tokenTable : ∀ row ∈ tokenTable, row.2.WellFormed := by decide

/-- The named characters are those of the table's rows, so the table is searched in vain for another. -/
theorem lookup_tokenTable_eq_none_iff {b : Byte} :
    tokenTable.lookup b = none ↔ isNamedCharacter b = false := by
  have hnames : namedCharacters = tokenTable.map Prod.fst := rfl
  rw [isNamedCharacter, hnames, List.lookup_eq_none_iff, List.contains_eq_mem,
    decide_eq_false_iff_not, List.mem_map]
  constructor
  · rintro h ⟨row, hrow, rfl⟩
    simpa using h row hrow
  · intro h row hrow
    exact bne_iff_ne.mpr fun hb => h ⟨row, hrow, hb.symm⟩

theorem wellFormed_ignore_iff {b : Byte} :
    (Instr.ignore b).WellFormed ↔ isNamedCharacter b = false :=
  iff_of_eq (Bool.not_eq_true' _)

theorem decodeToken_ignore {b : Byte} (h : isNamedCharacter b = false) :
    decodeToken b = .ignore b := by
  rw [decodeToken, lookup_tokenTable_eq_none_iff.mpr h]

/-- A character decodes to its row of the table, or is ignored where it has none. -/
theorem decodeToken_cases (b : Byte) :
    (b, decodeToken b) ∈ tokenTable
    ∨ isNamedCharacter b = false ∧ decodeToken b = .ignore b := by
  cases hrow : tokenTable.lookup b with
  | some i =>
    obtain ⟨before, after, htable, -⟩ := List.lookup_eq_some_iff.mp hrow
    have hdecode : decodeToken b = i := by rw [decodeToken, hrow]
    exact .inl (by simp [hdecode, htable])
  | none =>
    have hb := lookup_tokenTable_eq_none_iff.mp hrow
    exact .inr ⟨hb, decodeToken_ignore hb⟩

theorem wellFormed_decodeToken (b : Byte) : (decodeToken b).WellFormed := by
  rcases decodeToken_cases b with hrow | ⟨hb, hignore⟩
  · exact wellFormed_tokenTable _ hrow
  · rw [hignore]
    exact wellFormed_ignore_iff.mpr hb

/-! ## Decode and encode (30_encoding.md R61 to R72) -/

theorem wellFormed_decodeCall (f : HostFunction) : (decodeCall f).WellFormed := by
  cases f <;> rfl

/-- An accepted register write is a command word at CMD, or a bit-rate word with its reserved bits clear
at BITRATE (R44). -/
theorem decodeWrite_ok {off : Offset} {v : Word16} {i : Instr} (h : decodeWrite off v = .ok i) :
    (off = 0 ∧ i = decodeCommand v)
    ∨ (off = 3 ∧ reservedField v = 0 ∧ i = .bitrateWrite (prescalerField v) (lowByte v)) := by
  unfold decodeWrite at h
  split_ifs at h with h0 h3 hreserved <;> cases h
  · exact .inl ⟨h0, rfl⟩
  · exact .inr ⟨h3, hreserved, rfl⟩

/-- Settles O10: four rows have an operand inside the presentation or are what other rows leave over; the
others' presentations are literals and calls. -/
theorem decodeOfEncodeIsTheInstruction : Obligations.DecodeOfEncodeIsTheInstruction := by
  intro i hwf
  cases i
  case send b => exact congrArg Except.ok (decodeCommand_sendWord b)
  case reservedCommandWord w =>
    have hw := wellFormed_reservedCommandWord_iff.mp hwf
    exact congrArg Except.ok (decodeCommand_of_not_commandWord hw)
  case bitrateWrite p d =>
    have hdecode := decodeWrite_bitrate (reservedField_brword p d)
    rwa [prescalerField_brword, lowByte_brword] at hdecode
  case ignore b =>
    exact congrArg Except.ok (decodeToken_ignore (wellFormed_ignore_iff.mp hwf))
  all_goals rfl

/-- Settles O11: a case for each kind of presentation, and for each register that accepts a write. -/
theorem encodeOfDecodeIsThePresentation : Obligations.EncodeOfDecodeIsThePresentation := by
  intro p i h
  cases p with
  | write off v =>
    rcases decodeWrite_ok h with ⟨rfl, rfl⟩ | ⟨rfl, hreserved, rfl⟩
    · have hspells := commandWordSpells_decodeCommand v
      exact ⟨hspells.wellFormed, hspells.encode_eq⟩
    · exact ⟨rfl, congrArg (Presentation.write 3) (brword_fields hreserved)⟩
  | character b =>
    cases h
    exact ⟨wellFormed_decodeToken b, encode_decodeToken b⟩
  | call f =>
    cases h
    exact ⟨wellFormed_decodeCall f, encode_decodeCall f⟩

/-- Settles O8: the five masks are the tests of the decoder, and a word outside the fields of a command
is reserved. -/
theorem commandWordDecoding : Obligations.CommandWordDecoding := by
  refine ⟨fun w => ?_, fun w s => exec_reservedCommandWord w⟩
  have hfull : w &&& 0xFFFF = w := BitVec.and_allOnes
  have hfields := (commandWordSpells_decodeCommand w).reserved_or_fields
  rw [hfull]
  refine ⟨?_, fun hmask => ?_, ?_, ?_, ?_, fun hhigh => ?_, fun hop => ?_, fun hop hlow => ?_⟩
  · rintro rfl; rfl
  · exact (congrArg decodeCommand (mask_send_iff.mp hmask)).trans (decodeCommand_sendWord _)
  · rintro rfl; rfl
  · rintro rfl; rfl
  · rintro rfl; rfl
  · exact hfields.resolve_right fun ⟨hclear, _⟩ => hhigh hclear
  · refine hfields.resolve_right fun ⟨_, hcommand⟩ => ?_
    rcases hop with hop | hop | hop <;> simp [hop] at hcommand
  · exact hfields.resolve_right fun ⟨_, hcommand⟩ =>
      hcommand.elim hop fun ⟨hzero, _⟩ => hlow hzero

/-- Settles O9: the words are the encoder's, and O10 gives each command back. -/
theorem commandWordEncoding : Obligations.CommandWordEncoding := by
  have hback := decodeOfEncodeIsTheInstruction
  exact ⟨rfl, hback .start rfl,
    fun b => ⟨congrArg (Presentation.write 0) (sendWord_eq_or b), hback (.send b) rfl⟩,
    rfl, hback .recvAck rfl, rfl, hback .recvNack rfl, rfl, hback .stop rfl⟩

/-- Settles O12, by running the decoder on the eight presentations. -/
theorem sampleWordsDecode : Obligations.SampleWordsDecode :=
  ⟨rfl, rfl, rfl, rfl, rfl, rfl, rfl, rfl⟩

/-! ## Bit-rate words and address bytes (30_encoding.md R63, R65) -/

/-- An idle controller refuses a bit-rate word with a reserved bit set (R65, R79). -/
theorem writeBitrate_reserved {v : Word16} {s : State} (hi : s.ctl.inflight = none)
    (hv : reservedField v ≠ 0) : writeBitrate v s = .error .reservedField := by
  have hbusy : ¬ s.ctl.busy = true := by simp [Controller.busy, hi]
  rw [writeBitrate, if_neg hbusy, if_pos hv]

/-- Settles O6: the fields of `brword`, and the second check of write-bitrate. -/
theorem bitrateWordLayout : Obligations.BitrateWordLayout :=
  ⟨fun p d => ⟨brword_toNat p d, prescalerField_brword p d, lowByte_brword p d,
    reservedField_brword p d⟩, fun _ _ hi hv => writeBitrate_reserved hi hv⟩

theorem sla_toNat (a : SlaveAddr) (d : Dir) :
    (sla a d).toNat = a.toNat * 2 + (dirBit d).toNat := toNat_append_eq_add a (dirBit d)

/-- Bits 7 to 1 of an address byte are the address (R63). -/
theorem slaAddr_sla (a : SlaveAddr) (d : Dir) : slaAddr (sla a d) = a :=
  BitVec.extractLsb'_append_eq_left

/-- Bit 0 of an address byte is the direction's bit (R63). -/
theorem sla_getLsbD_zero (a : SlaveAddr) (d : Dir) :
    (sla a d).getLsbD 0 = (dirBit d).getLsbD 0 := by
  rw [sla, BitVec.getLsbD_append, if_pos Nat.zero_lt_one]

/-- Settles O13: an address byte is the address, and below it the direction's bit. -/
theorem addressByteLayout : Obligations.AddressByteLayout := by
  refine ⟨fun a => ⟨?_, ?_⟩, fun a d => ⟨slaAddr_sla a d, ?_⟩⟩
  · rw [sla_toNat, Nat.mul_comm]
    rfl
  · rw [sla_toNat, Nat.mul_comm]
    rfl
  · rw [sla_getLsbD_zero]
    cases d <;> rfl

end Sys2Proof.Machine

namespace Sys2Proof.Machine

/-! ## The search for clock parameters (40_clock_configurator.md R74 to R78) -/

section ClockParameters
variable {reading : ClockDivReading} {base target : Nat} {p q : BitVec 2} {d : Byte}
  {rest ps : List (BitVec 2)}

/-- The loop goes on from a divisor above 255. -/
theorem clockSearch_cons_of_gt (hq : 255 < clockDivisor reading base target q.toNat) :
    clockSearch reading base target (q :: rest) = clockSearch reading base target rest :=
  if_neg (Int.not_le.mpr hq)

/-- The loop stops at a divisor of at most 255, with Ok only if it is a byte (R76). -/
theorem clockSearch_cons_eq_ok_iff_of_le (hq : clockDivisor reading base target q.toNat ≤ 255) :
    clockSearch reading base target (q :: rest) = .ok p d ↔
      q = p ∧ clockDivisor reading base target q.toNat = d.toNat := by
  simp only [clockSearch, if_pos hq]
  have hd := d.isLt
  split
  · exact ⟨nofun, fun ⟨_, h⟩ => by omega⟩
  · rw [ClockResult.ok.injEq, ← BitVec.toNat_inj (y := d), BitVec.toNat_ofNat]
    exact and_congr_right fun _ => by omega

/-- Over rising exponents the search finds the first that fits. -/
theorem clockSearch_eq_ok_iff (hps : ps.Pairwise (· < ·)) :
    clockSearch reading base target ps = .ok p d ↔
      p ∈ ps ∧ (∀ q ∈ ps, q < p → 255 < clockDivisor reading base target q.toNat)
      ∧ clockDivisor reading base target p.toNat = d.toNat := by
  induction ps with
  | nil => simp [clockSearch]
  | cons r rest ih =>
    obtain ⟨hr, hrest⟩ := List.pairwise_cons.mp hps
    rw [List.forall_mem_cons, List.mem_cons]
    have hd := d.isLt
    by_cases hstop : clockDivisor reading base target r.toNat ≤ 255
    · rw [clockSearch_cons_eq_ok_iff_of_le hstop]
      constructor
      · rintro ⟨rfl, hdiv⟩
        exact ⟨.inl rfl, ⟨fun h => absurd h (BitVec.lt_irrefl r),
          fun q hq h => absurd h (BitVec.lt_asymm (hr q hq))⟩, hdiv⟩
      · rintro ⟨rfl | hmem, ⟨hfirst, -⟩, hdiv⟩
        · exact ⟨rfl, hdiv⟩
        · exact absurd (hfirst (hr p hmem)) (Int.not_lt.mpr hstop)
    · have hgoes := Int.not_le.mp hstop
      rw [clockSearch_cons_of_gt hgoes, ih hrest]
      constructor
      · rintro ⟨hmem, hlow, hdiv⟩
        exact ⟨.inr hmem, ⟨fun _ => hgoes, hlow⟩, hdiv⟩
      · rintro ⟨rfl | hmem, ⟨-, hlow⟩, hdiv⟩
        · omega
        · exact ⟨hmem, hlow, hdiv⟩

/-- The loop's four exponents are all there are. -/
theorem mem_exponents : ∀ q : BitVec 2, q ∈ ([0, 1, 2, 3] : List (BitVec 2)) := by decide

theorem forall_mem_exponents_lt_iff (P : Nat → Prop) :
    (∀ q ∈ ([0, 1, 2, 3] : List (BitVec 2)), q < p → P q.toNat) ↔ ∀ n < p.toNat, P n := by
  constructor
  · intro h n hn
    have hnat : (BitVec.ofNat 2 n).toNat = n := Nat.mod_eq_of_lt (hn.trans p.isLt)
    have hP := h (BitVec.ofNat 2 n) (mem_exponents _) (BitVec.lt_def.mpr (by rwa [hnat]))
    rwa [hnat] at hP
  · exact fun h q _ hq => h q.toNat (BitVec.lt_def.mp hq)

/-- Under either reading the result is the first exponent that fits (R74, R78). -/
theorem computeClockParameters_eq_ok_iff :
    computeClockParameters reading base target = .ok p d ↔
      0 < target ∧ (∀ n < p.toNat, 255 < clockDivisor reading base target n)
      ∧ clockDivisor reading base target p.toNat = d.toNat := by
  unfold computeClockParameters
  split
  · exact ⟨nofun, fun ⟨hpos, _⟩ => by omega⟩
  · rw [clockSearch_eq_ok_iff (by decide),
      forall_mem_exponents_lt_iff (255 < clockDivisor reading base target ·)]
    exact ⟨fun ⟨_, h⟩ => ⟨by omega, h⟩, fun ⟨_, h⟩ => ⟨mem_exponents p, h⟩⟩

/-- For a target not above `base/16` the readings agree at exponents 0 and 1 (R75): `4^n` divides 8, so
the exact quotient loses a whole number too. -/
theorem clockDivisor_exact_eq_termwise {n : Nat} (hn : n ≤ 1) (ht : 0 < target)
    (hbase : 16 * target ≤ base) :
    clockDivisor .exact base target n = clockDivisor .termwise base target n := by
  have hpow : 8 / 4 ^ n * 4 ^ n = 8 := by interval_cases n <;> rfl
  have hstep : 0 < target * 4 ^ n * 2 := by positivity
  have hwhole : 16 * target = 8 / 4 ^ n * (target * 4 ^ n * 2) := by
    calc 16 * target = 8 * (target * 2) := by ring
      _ = 8 / 4 ^ n * 4 ^ n * (target * 2) := by rw [hpow]
      _ = 8 / 4 ^ n * (target * 4 ^ n * 2) := by ring
  have hden : (2 * 4 ^ n * target : Int) = (target * 4 ^ n * 2 : Nat) := by push_cast; ring
  have hnum : (base - 16 * target : Int)
      = base - (8 / 4 ^ n : Nat) * (target * 4 ^ n * 2 : Nat) := by
    rw [← Nat.cast_mul, ← hwhole, Nat.cast_mul, Nat.cast_ofNat]
  calc clockDivisor .exact base target n
      = (base - 16 * target : Int) / (2 * 4 ^ n * target) := Int.tdiv_eq_ediv_of_nonneg (by omega)
    _ = (base / (target * 4 ^ n * 2) : Nat) - (8 / 4 ^ n : Nat) := by
      rw [hnum, hden, Int.sub_mul_ediv_right _ _ (by omega), ← Int.natCast_ediv base]

/-- The termwise divisor at exponent 0 is negative just for a target above `base/16` (R76). -/
theorem clockDivisor_termwise_zero_nonneg_iff (ht : 0 < target) :
    0 ≤ clockDivisor .termwise base target 0 ↔ 16 * target ≤ base := by
  have hdiv : 8 ≤ base / (target * 4 ^ 0 * 2) ↔ 8 * (target * 4 ^ 0 * 2) ≤ base :=
    Nat.le_div_iff_mul_le (by omega)
  simp only [clockDivisor]
  omega

/-- A search that succeeds has found no negative divisor at exponent 0 (R76). -/
theorem clockDivisor_zero_nonneg (h : computeClockParameters reading base target = .ok p d) :
    0 ≤ clockDivisor reading base target 0 := by
  obtain ⟨-, hlow, hdiv⟩ := computeClockParameters_eq_ok_iff.mp h
  rcases Nat.eq_zero_or_pos p.toNat with hp | hp
  · rw [hp] at hdiv
    omega
  · have := hlow 0 hp
    omega

end ClockParameters

/-- Settles O46: under the termwise reading the divisor is R74's formula. -/
theorem clockParametersAreTheFirstFit : Obligations.ClockParametersAreTheFirstFit :=
  fun _ _ _ _ => computeClockParameters_eq_ok_iff

/-- Settles O47: a divisor of at least 0 at exponent 0 puts the target at most at `base/16`, where the two
readings agree at both exponents. -/
theorem termwiseOkAtSmallExponentsIsExact : Obligations.TermwiseOkAtSmallExponentsIsExact := by
  intro base target p d hp h
  obtain ⟨ht, hlow, hdiv⟩ := computeClockParameters_eq_ok_iff.mp h
  have hbase := (clockDivisor_termwise_zero_nonneg_iff ht).mp (clockDivisor_zero_nonneg h)
  have hagree : ∀ n ≤ p.toNat,
      clockDivisor .exact base target n = clockDivisor .termwise base target n := fun n hn =>
    clockDivisor_exact_eq_termwise (hn.trans hp) ht hbase
  refine computeClockParameters_eq_ok_iff.mpr ⟨ht, fun n hn => ?_, ?_⟩
  · rw [hagree n hn.le]
    exact hlow n hn
  · rw [hagree _ le_rfl]
    exact hdiv

/-! ## The bit-rate write and setup (40_clock_configurator.md R79, R80) -/

section BitrateWrite
variable {s : State}

/-- The first check of write-bitrate (R79). -/
theorem writeBitrate_busy (hi : s.ctl.inflight ≠ none) (v : Word16) :
    writeBitrate v s = .error .writeWhileBusy :=
  if_pos (Option.isSome_iff_ne_none.mpr hi)

/-- The writes of write-bitrate, past both checks (R79). -/
theorem writeBitrate_idle {v : Word16} (hi : s.ctl.inflight = none) (hv : reservedField v = 0) :
    writeBitrate v s = .ok { s with ctl := { s.ctl with
      prescalerExponent := prescalerField v, divisor := lowByte v, configured := true } } := by
  have hbusy : ¬ s.ctl.busy = true := by simp [Controller.busy, hi]
  rw [writeBitrate, if_neg hbusy, if_neg (not_not.mpr hv)]

/-- An idle controller accepts every bit-rate word (R65, R79). -/
theorem writeBitrate_brword (hi : s.ctl.inflight = none) (p : BitVec 2) (d : Byte) :
    writeBitrate (brword p d) s = .ok { s with ctl := { s.ctl with
      prescalerExponent := p, divisor := d, configured := true } } := by
  rw [writeBitrate_idle hi (reservedField_brword p d), prescalerField_brword, lowByte_brword]

end BitrateWrite

section Setup
variable {base target : Nat} {s : State} {p : BitVec 2} {d : Byte}

/-- Setup with parameters is a BITRATE write, then a return (R80). -/
theorem setup_of_ok (h : computeClockParameters .termwise base target = .ok p d) :
    setup base target s = settle s ((writeBitrate (brword p d) s).map (ret (.setup true))) := by
  rw [setup, Config.clockDivReading, h]

/-- Setup without parameters writes nothing (R80). -/
theorem setup_of_unreachable
    (h : computeClockParameters .termwise base target = .unreachableBitrate) :
    setup base target s = ret (.setup false) s := by
  rw [setup, Config.clockDivReading, h]

end Setup

/-- Settles O7: the two checks, the writes, and the instruction on a bit-rate word. -/
theorem bitrateWriteEffect : Obligations.BitrateWriteEffect := by
  refine ⟨fun v s hi => writeBitrate_busy hi v, fun v s hi hv => writeBitrate_reserved hi hv,
    fun v s hi hv => writeBitrate_idle hi hv, fun p d s hf hi => ?_⟩
  have hexec : exec (.bitrateWrite p d) s = act s (settle s (writeBitrate (brword p d) s)) := rfl
  rw [hexec, act_of_no_fault hf, writeBitrate_brword hi, settle_ok]

/-- Settles O48: setup by its result and by whether a command is in flight. -/
theorem clockFunctionsReturn : Obligations.ClockFunctionsReturn := by
  intro base target s hf hready
  have hsetup : exec (.setup base target) s = .next (setup base target s) := act_of_no_fault hf
  refine ⟨?_, fun p d hok hi => ?_, fun p d hok hi => ?_, fun herr => ?_⟩
  · rw [← ret_of_ready _ hready]
    exact act_of_no_fault hf
  · rw [hsetup, setup_of_ok hok, writeBitrate_brword hi]
    exact congrArg _ (ret_of_ready _ hready)
  · rw [hsetup, setup_of_ok hok, writeBitrate_busy hi]
    rfl
  · rw [hsetup, setup_of_unreachable herr, ret_of_ready _ hready]

end Sys2Proof.Machine

namespace Sys2Proof.Machine

/-! ## Meaningful commands (41_bus_commands.md R82) -/

theorem carriesBytes_iff {p : Phase} :
    p.carriesBytes = true ↔ p = .addressed ∨ p = .transferring := by
  cases p <;> decide

theorem meaningful_send_iff {c : Controller} {b : Byte} :
    meaningful c (.send b) = true ↔
      (c.phase = .started ∧ c.addrPending = true)
      ∨ ((c.phase = .addressed ∨ c.phase = .transferring) ∧ c.direction = some .write) := by
  simp [meaningful, carriesBytes_iff]

theorem meaningful_recvAck_iff {c : Controller} :
    meaningful c .recvAck = true ↔
      (c.phase = .addressed ∨ c.phase = .transferring) ∧ c.direction = some .read := by
  simp [meaningful, carriesBytes_iff]

/-- The two receives are meaningful in the same states. -/
theorem meaningful_recvNack_iff {c : Controller} :
    meaningful c .recvNack = true ↔
      (c.phase = .addressed ∨ c.phase = .transferring) ∧ c.direction = some .read :=
  meaningful_recvAck_iff

/-! ## The four checks of a command (41_bus_commands.md R81) -/

section Issue
variable {cmd : Command} {s : State}

theorem issue_unconfigured (cmd : Command) (hc : s.ctl.configured = false) :
    issue cmd s = .error .unconfigured :=
  if_pos hc

theorem issue_busy (cmd : Command) (hc : s.ctl.configured = true) (hi : s.ctl.inflight ≠ none) :
    issue cmd s = .error .commandWhileBusy := by
  have hbusy : s.ctl.busy = true := Option.isSome_iff_ne_none.mpr hi
  simp [issue, hc, hbusy]

theorem issue_misuse (hc : s.ctl.configured = true) (hi : s.ctl.inflight = none)
    (hm : meaningful s.ctl cmd = false) : issue cmd s = .error .protocolMisuse := by
  simp [issue, Controller.busy, hc, hi, hm]

/-- In a configured idle controller the third check is the only one left to fail. -/
theorem issue_eq_misuse_iff (hc : s.ctl.configured = true) (hi : s.ctl.inflight = none) :
    issue cmd s = .error .protocolMisuse ↔ meaningful s.ctl cmd = false := by
  cases hm : meaningful s.ctl cmd with
  | false => exact iff_of_true (issue_misuse hc hi hm) rfl
  | true =>
    rw [issue_of_checks hc hi hm]
    exact iff_of_false nofun nofun

/-- The instruction of a command is its issue, in a machine with no fault. -/
theorem exec_command (cmd : Command) (hf : s.ctl.fault = none) :
    exec cmd.instr s = .next (settle s (issue cmd s)) := by
  have hexec : exec cmd.instr s = act s (settle s (issue cmd s)) := by cases cmd <;> rfl
  rw [hexec, act_of_no_fault hf]

/-- A check that fails raises its fault. -/
theorem exec_command_of_error {r : Fault} (hf : s.ctl.fault = none) (hr : issue cmd s = .error r) :
    exec cmd.instr s = .next (raise r s) := by
  rw [exec_command cmd hf, hr, settle_error]

/-- A command that can be issued is accepted. -/
theorem exec_command_of_canIssue (h : CanIssue cmd s) :
    exec cmd.instr s = .next { s with ctl := accept cmd s.ctl } := by
  obtain ⟨hf, hc, hi, hm⟩ := h
  rw [exec_command cmd hf, issue_of_checks hc hi hm, settle_ok]

end Issue

/-- Settles O15: a reserved word is the reserved row, and any other word is a command's, whose checks
are those of its issue. -/
theorem issueCommandWord : Obligations.IssueCommandWord := by
  intro w s hf
  refine ⟨fun hw => ?_, fun cmd hmem => ?_⟩
  · rw [decodeCommand_of_not_commandWord hw]
    exact act_of_no_fault hf
  · have hinstr : decodeCommand w = cmd.instr := by
      simp only [List.mem_cons, Prod.mk.injEq, List.not_mem_nil, or_false] at hmem
      rcases hmem with ⟨h, rfl⟩ | ⟨h, rfl⟩ | ⟨h, rfl⟩ | ⟨h, rfl⟩ | ⟨h, rfl⟩ <;> exact h
    rw [hinstr]
    refine ⟨fun hc => exec_command_of_error hf (issue_unconfigured cmd hc),
      fun hc hi => exec_command_of_error hf (issue_busy cmd hc hi),
      fun hc hi hm => exec_command_of_error hf (issue_misuse hc hi hm), fun h => ?_⟩
    rw [exec_command_of_canIssue h]
    cases cmd <;> rfl

/-- Settles O16: R82's rows, and the third check of R81. -/
theorem meaningfulCommands : Obligations.MeaningfulCommands :=
  ⟨fun _ => ⟨rfl, rfl, fun _ => meaningful_send_iff, meaningful_recvAck_iff,
    meaningful_recvNack_iff⟩, fun _ _ => issue_eq_misuse_iff⟩

/-- Settles O17: each command is accepted, and START and STOP are meaningful in every state. -/
theorem commandsAreIssued : Obligations.CommandsAreIssued :=
  ⟨fun _ hf hc hi => ⟨exec_command_of_canIssue (cmd := .start) ⟨hf, hc, hi, rfl⟩,
      exec_command_of_canIssue (cmd := .stop) ⟨hf, hc, hi, rfl⟩⟩,
    fun b _ => exec_command_of_canIssue (cmd := .send b),
    fun _ => exec_command_of_canIssue (cmd := .recvAck),
    fun _ => exec_command_of_canIssue (cmd := .recvNack)⟩

/-! ## What a completion writes (41_bus_commands.md R86, R88 to R91) -/

theorem startStatus_of_active {p : Phase} (h : p.active = true) : startStatus p = .repeatedStart := by
  cases p with
  | idle | stopped => cases h
  | started | addressed | transferring => rfl

theorem startStatus_of_idleEq {p : Phase} (h : p.idleEq = true) : startStatus p = .start := by
  cases p with
  | started | addressed | transferring => cases h
  | idle | stopped => rfl

theorem slaDir_write {b : Byte} (h : b.getLsbD 0 = false) : slaDir b = .write := by
  rw [slaDir, h]; rfl

theorem slaDir_read {b : Byte} (h : b.getLsbD 0 = true) : slaDir b = .read := by
  rw [slaDir, h]; rfl

section Completion
variable {d : Draw} {s : State} {b : Byte}

/-- A START that obtains the bus: its status tells whether the session was active (R86). -/
theorem complete_start_owned (h : d.start = .owned) :
    complete .start d s = { s with ctl := { s.ctl with
      inflight := none, status := startStatus s.ctl.phase, phase := .started, addrPending := true,
      direction := none, trace := s.ctl.trace ++ [.start (startStatus s.ctl.phase)] } } := by
  have hstatus : (if s.ctl.phase.active then Status.repeatedStart else .start)
      = startStatus s.ctl.phase := by cases s.ctl.phase <;> rfl
  simp only [complete, completionRule, completeStart, h, hstatus]

/-- A START that loses the bus (R86). -/
theorem complete_start_arbLost (h : d.start = .arbLost) :
    complete .start d s = { s with ctl := { s.ctl with
      inflight := none, status := .arbLost, phase := .idle, addrPending := false,
      direction := none, trace := s.ctl.trace ++ [.start .arbLost] } } := by
  simp only [complete, completionRule, completeStart, h]

/-- An address byte that is acknowledged (R88). -/
theorem complete_address_ack (hp : s.ctl.addrPending = true) (h : d.ack = .ack) :
    complete (.send b) d s = { s with ctl := { s.ctl with
      inflight := none, addrPending := false, status := addressStatus (slaDir b) .ack,
      phase := .addressed, direction := some (slaDir b),
      trace := s.ctl.trace ++ [.send b (addressStatus (slaDir b) .ack)] } } := by
  simp only [complete, completionRule, completeSend, hp, if_true, completeAddress, h]

/-- An address byte that is not acknowledged (R88). -/
theorem complete_address_nack (hp : s.ctl.addrPending = true) (h : d.ack = .nack) :
    complete (.send b) d s = { s with ctl := { s.ctl with
      inflight := none, addrPending := false, status := addressStatus (slaDir b) .nack,
      direction := none,
      trace := s.ctl.trace ++ [.send b (addressStatus (slaDir b) .nack)] } } := by
  simp only [complete, completionRule, completeSend, hp, if_true, completeAddress, h]

/-- A data byte that is acknowledged (R88). -/
theorem complete_data_ack (hp : s.ctl.addrPending = false) (h : d.ack = .ack) :
    complete (.send b) d s = { s with ctl := { s.ctl with
      inflight := none, status := .mtDataAck, phase := .transferring,
      trace := s.ctl.trace ++ [.send b .mtDataAck] } } := by
  simp [complete, completionRule, completeSend, hp, completeData, h]

/-- A data byte that is not acknowledged (R88). -/
theorem complete_data_nack (hp : s.ctl.addrPending = false) (h : d.ack = .nack) :
    complete (.send b) d s = { s with ctl := { s.ctl with
      inflight := none, status := .mtDataNack, phase := .transferring,
      trace := s.ctl.trace ++ [.send b .mtDataNack] } } := by
  simp [complete, completionRule, completeSend, hp, completeData, h]

end Completion

/-- Settles O18: a START by its draw, and the status by the phase it starts from. -/
theorem startCompletion : Obligations.StartCompletion := by
  intro d s
  refine ⟨fun ho hphase => ?_, fun ho hphase => ?_, complete_start_arbLost⟩
  · have hidle : s.ctl.phase.idleEq = true := by rcases hphase with h | h <;> rw [h] <;> rfl
    rw [complete_start_owned ho, startStatus_of_idleEq hidle]
  · have hactive : s.ctl.phase.active = true := by rcases hphase with h | h | h <;> rw [h] <;> rfl
    rw [complete_start_owned ho, startStatus_of_active hactive]

/-- Settles O19: bit 0 of an address byte is its direction, which names the status. -/
theorem sendCompletion : Obligations.SendCompletion := by
  intro b d s
  refine ⟨fun hp ha hb => ?_, fun hp ha hb => ?_, fun hp ha hb => ?_, fun hp ha hb => ?_,
    complete_data_ack, complete_data_nack⟩
  · rw [complete_address_ack hp ha, slaDir_write hb]; rfl
  · rw [complete_address_ack hp ha, slaDir_read hb]; rfl
  · rw [complete_address_nack hp ha, slaDir_write hb]; rfl
  · rw [complete_address_nack hp ha, slaDir_read hb]; rfl

/-- Settles O20: these three completions branch on nothing, so the rules themselves are the states. -/
theorem receiveAndStopCompletion : Obligations.ReceiveAndStopCompletion :=
  fun _ _ => ⟨rfl, rfl, rfl⟩

/-! ## The transition table (41_bus_commands.md R92) -/

/-- A SEND accepted in Started is an address byte. -/
theorem addrPending_of_meaningful_send {c : Controller} {b : Byte}
    (hm : meaningful c (.send b) = true) (hphase : c.phase = .started) : c.addrPending = true := by
  simpa [meaningful_send_iff, hphase] using hm

/-- A SEND accepted where bytes are carried is a data byte of a session that writes (R24, R25). -/
theorem session_of_meaningful_data {c : Controller} {b : Byte} (hs : SessionInv c)
    (hm : meaningful c (.send b) = true) (hcarries : c.phase.carriesBytes = true) :
    c.addrPending = false ∧ c.direction = some .write := by
  obtain ⟨-, hpend, -, -⟩ := hs
  have hp := addrPending_of_carriesBytes hpend hcarries
  exact ⟨hp, direction_of_meaningful_send hm hp⟩

/-- An accepted receive belongs to a session that reads, with no address byte pending (R24, R25). -/
theorem session_of_meaningful_recv {c : Controller} (hs : SessionInv c)
    (hm : meaningful c .recvAck = true ∨ meaningful c .recvNack = true) :
    c.addrPending = false ∧ c.direction = some .read := by
  obtain ⟨-, hpend, -, -⟩ := hs
  obtain ⟨hphase, hdir⟩ := hm.elim meaningful_recvAck_iff.mp meaningful_recvNack_iff.mp
  exact ⟨addrPending_of_carriesBytes hpend (carriesBytes_iff.mpr hphase), hdir⟩

/-- Settles O22: each row is the exact completion, with what the invariants and the command's being
meaningful say of the fields it leaves alone. -/
theorem transitionTable : Obligations.TransitionTable := by
  intro d s hs _
  refine ⟨fun ho hidle => ?_, fun ho hactive => ?_, fun ho => ?_, fun b hm => ?_, fun hm => ?_,
    fun hm => ?_, ⟨rfl, rfl, rfl, rfl⟩⟩
  · rw [complete_start_owned ho, startStatus_of_idleEq hidle]
    exact ⟨rfl, rfl, rfl, rfl⟩
  · rw [complete_start_owned ho, startStatus_of_active hactive]
    exact ⟨rfl, rfl, rfl, rfl⟩
  · rw [complete_start_arbLost ho]
    exact ⟨rfl, rfl, rfl, rfl⟩
  · refine ⟨fun hphase ha => ?_, fun hphase ha => ?_, fun hcarries ha => ?_, fun hcarries ha => ?_⟩
    · rw [complete_address_ack (addrPending_of_meaningful_send hm hphase) ha]
      exact ⟨rfl, rfl, rfl, rfl⟩
    · rw [complete_address_nack (addrPending_of_meaningful_send hm hphase) ha]
      exact ⟨hphase, rfl, rfl, rfl⟩
    · obtain ⟨hp, hdir⟩ := session_of_meaningful_data hs hm hcarries
      rw [complete_data_ack hp ha]
      exact ⟨rfl, hp, hdir, rfl⟩
    · obtain ⟨hp, hdir⟩ := session_of_meaningful_data hs hm hcarries
      rw [complete_data_nack hp ha]
      exact ⟨rfl, hp, hdir, rfl⟩
  · obtain ⟨hp, hdir⟩ := session_of_meaningful_recv hs (.inl hm)
    exact ⟨rfl, hp, hdir, rfl⟩
  · obtain ⟨hp, hdir⟩ := session_of_meaningful_recv hs (.inr hm)
    exact ⟨rfl, hp, hdir, rfl⟩

/-! ## The step of each agent (41_bus_commands.md R83, R93; 60_exceptions.md R136) -/

section StepOfAgent
variable {cmd : Command} {s : State}

/-- With nothing in flight the host moves, whatever the turn. -/
theorem step_of_idle (hf : s.ctl.fault = none) (hi : s.ctl.inflight = none) :
    step s = hostStep (advance s) := by
  simp only [step, hf, hi]

/-- The environment's turn is the completion of the command in flight. -/
theorem step_of_environment (hf : s.ctl.fault = none) (hi : s.ctl.inflight = some cmd)
    (ht : s.turn = .environment) :
    step s = .next (complete cmd (Config.draw s.tick) (advance s)) := by
  simp only [step, hf, hi, ht]

/-- A host that waits takes a pass of its wait. -/
theorem hostStep_of_polling {k : Await} (hk : s.control = .polling k) :
    hostStep s = .next (poll k s) := by
  rw [hostStep, hk]

/-- A completion neither reads nor writes the pace of the free values. -/
theorem advance_complete (cmd : Command) (d : Draw) (s : State) :
    advance (complete cmd d s) = complete cmd d (advance s) := rfl

/-- A host that waits is served by the completion and a pass of its wait (R93). -/
theorem serve_of_polling {k : Await} (d : Draw) (hi : s.ctl.inflight = some cmd)
    (hk : s.control = .polling k) : serve d s = poll k (complete cmd d s) := by
  simp only [serve, hi, hk]

end StepOfAgent

/-- Settles O21: the controller's part is the shape of every completion rule, and the host's fields are
none that a completion writes. -/
theorem completionFrame : Obligations.CompletionFrame :=
  ⟨fun cmd d s => ⟨completionRule_ratesKept cmd d s.ctl, ⟨rfl, rfl, rfl, rfl, rfl⟩, rfl, rfl⟩,
    fun _ => step_of_idle⟩

/-- Settles O23: the environment's step. -/
theorem stepCompletesTheCommandInFlight : Obligations.StepCompletesTheCommandInFlight :=
  fun _ _ => step_of_environment

/-- Settles O37: after the completion nothing is in flight, so the next step is the host's pass, on the
state that `serve` makes it on. -/
theorem serveIsTwoSteps : Obligations.ServeIsTwoSteps := by
  intro s k cmd hf hi ht hk
  refine ⟨_, step_of_environment hf hi ht, rfl, ?_⟩
  have hfault : (complete cmd (Config.draw s.tick) (advance s)).ctl.fault = none := by
    obtain ⟨-, -, -, hkept⟩ := completionRule_ratesKept cmd (Config.draw s.tick) s.ctl
    exact hkept.trans hf
  have hcontrol : (complete cmd (Config.draw s.tick) (advance (advance s))).control = .polling k := hk
  rw [step_of_idle hfault rfl, advance_complete, hostStep_of_polling hcontrol,
    serve_of_polling (s := advance (advance s)) _ hi hk]

end Sys2Proof.Machine

namespace Sys2Proof.Machine

/-! ## The wait and its end (42_bus_driver.md R94, R95) -/

/-- The state in which a command has been accepted and the host waits for it (R81, R94). -/
def State.issued (k : Await) (cmd : Command) (s : State) : State :=
  { s with ctl := accept cmd s.ctl, control := .polling k }

section Wait
variable {s : State} {k k' : Await} {cmd cmd' : Command}

theorem issueAndWait_eq_issued (hc : s.ctl.configured = true) (hi : s.ctl.inflight = none)
    (hm : meaningful s.ctl cmd = true) : issueAndWait k cmd s = s.issued k cmd :=
  issueAndWait_of_checks k hc hi hm

/-- Issue and wait raises the fault of the check that fails. -/
theorem issueAndWait_of_error {r : Fault} (k : Await) (h : issue cmd s = .error r) :
    issueAndWait k cmd s = raise r s := by
  rw [issueAndWait, h]
  rfl

/-- The host moves when nothing is in flight, and when the turn is its own (R136). -/
theorem step_of_hostTurn (hf : s.ctl.fault = none) (h : s.ctl.inflight = none ∨ s.turn = .host) :
    step s = hostStep (advance s) := by
  cases hi : s.ctl.inflight with
  | none => exact step_of_idle hf hi
  | some cmd =>
    have hturn : s.turn = .host := by simpa [hi] using h
    simp only [step, hf, hi, hturn]

/-- On the host's turn a host that waits takes a pass of its wait. -/
theorem step_of_polling (hf : s.ctl.fault = none) (h : s.ctl.inflight = none ∨ s.turn = .host)
    (hk : s.control = .polling k) : step s = .next (poll k (advance s)) := by
  rw [step_of_hostTurn hf h]
  exact hostStep_of_polling (s := advance s) hk

/-- A host that waits goes on, once served, from the completed command. -/
theorem serve_eq_resume (d : Draw) (hi : s.ctl.inflight = some cmd) (hk : s.control = .polling k) :
    serve d s = resume k (complete cmd d s) := by
  rw [serve_of_polling d hi hk, poll_idle rfl]

/-- The answer to a command that the host has just issued. -/
theorem serve_issued (d : Draw) (k : Await) (cmd : Command) (s : State) :
    serve d (s.issued k cmd) = resume k (complete cmd d (s.issued k cmd)) :=
  serve_eq_resume d rfl rfl

/-- A primitive that goes on with another command issues it: the completion has left nothing in flight,
and the controller configured. -/
theorem serve_issues (d : Draw) (hi : s.ctl.inflight = some cmd) (hk : s.control = .polling k)
    (hres : resume k (complete cmd d s) = issueAndWait k' cmd' (complete cmd d s))
    (hc : s.ctl.configured = true) (hm : meaningful (complete cmd d s).ctl cmd' = true) :
    serve d s = (complete cmd d s).issued k' cmd' := by
  obtain ⟨hkept, -⟩ := completionRule_ratesKept cmd d s.ctl
  rw [serve_eq_resume d hi hk, hres, issueAndWait_eq_issued (hkept.trans hc) rfl hm]

theorem serveAll_append (ds es : List Draw) (s : State) :
    serveAll (ds ++ es) s = serveAll es (serveAll ds s) := by
  induction ds generalizing s with
  | nil => rfl
  | cons d ds ih => exact ih (serve d s)

end Wait

/-- Settles O25: the three are the busy pass, the action of the host program, and the idle pass. -/
theorem awaitCompleteSpinsThenReturns : Obligations.AwaitCompleteSpinsThenReturns := by
  refine ⟨fun s k cmd hf hi ht hk => ?_, fun s rest hmoves hrun hprog => ?_, fun s hf hi hk => ?_⟩
  · rw [step_of_polling hf (.inr ht) hk, poll_busy (s := advance s) hi]
  · exact step_performs hmoves hrun hprog
  · rw [step_of_polling hf (.inl hi) hk, poll_idle (s := advance s) hi]
    rfl

/-! ## A wait raises no fault (R95, R97, R100, R103) -/

/-- The two primitives that send the address once their START has obtained the bus: where each waits for
the START, and where for the SEND (R97, R98). -/
inductive SendsAddress (a : SlaveAddr) (d : Dir) : Point → Point → Prop where
  | addressed : SendsAddress a d (.addressedStart a d) .addressedSend
  | retrying : SendsAddress a d (.retryStart a d) (.retrySend a d)

section Resume
variable {s : State} {k : Await} {cmd : Command} {a : SlaveAddr} {d : Dir} {p q : Point}

theorem SendsAddress.resume_eq (h : SendsAddress a d p q) (caller : Caller)
    (ho : startObtained s.ctl.status = true) :
    resume ⟨p, caller⟩ s = issueAndWait ⟨q, caller⟩ (.send (sla a d)) s := by
  cases h <;> exact if_pos ho

/-- A START that obtained the bus has left the address byte to come. -/
theorem SendsAddress.checks (h : SendsAddress a d p q) {c : Controller} (hp : pointOk p c = true)
    (hi : c.inflight = none) (ho : startObtained c.status = true) (b : Byte) :
    c.configured = true ∧ meaningful c (.send b) = true := by
  obtain ⟨hc, hsession⟩ : c.configured = true ∧ c.phase = .started ∧ c.addrPending = true := by
    cases h <;> simpa [pointOk, hi, ho] using hp
  exact ⟨hc, meaningful_send_iff.mpr (.inl hsession)⟩

/-- Issue and wait raises nothing when the command passes its checks. -/
theorem issueAndWait_fault (hc : s.ctl.configured = true) (hi : s.ctl.inflight = none)
    (hm : meaningful s.ctl cmd = true) : (issueAndWait k cmd s).ctl.fault = s.ctl.fault := by
  rw [issueAndWait_of_checks k hc hi hm]
  rfl

theorem SendsAddress.resume_fault (h : SendsAddress a d p q) (caller : Caller)
    (hp : pointOk p s.ctl = true) (hi : s.ctl.inflight = none)
    (ho : startObtained s.ctl.status = true) :
    (resume ⟨p, caller⟩ s).ctl.fault = s.ctl.fault := by
  obtain ⟨hc, hm⟩ := h.checks hp hi ho (sla a d)
  rw [h.resume_eq caller ho, issueAndWait_fault hc hi hm]

/-- The end of a primitive raises nothing when what its token does next goes through. -/
theorem finish_fault {caller : Caller} (v : ReturnValue) {after : State → Except Fault State}
    (h : caller = .interpreter → ∃ t, after s = .ok t ∧ t.ctl = s.ctl) :
    (finish caller v after s).ctl.fault = s.ctl.fault := by
  cases caller with
  | host => rfl
  | interpreter =>
    obtain ⟨t, e, hctl⟩ := h rfl
    simp [finish, e, Except.map, hctl]

/-- A read that has its slot can be stored (R107). -/
theorem storeRead_of_slot (v : Byte) (h : s.interp.readIdx < s.interp.readTargets.length) :
    ∃ t, storeRead v s = .ok t ∧ t.ctl = s.ctl := by
  rcases storeRead_cases v s with ⟨-, e⟩ | ⟨hfull, -⟩
  · exact ⟨_, e, rfl⟩
  · omega

/-- What follows a completed wait raises no fault: each later command of a primitive passes its checks,
DATA holds the byte that is read, and a token's read has its slot. -/
theorem resume_fault (hp : pointOk k.point s.ctl = true) (hcaller : callerOk k s = true)
    (hi : s.ctl.inflight = none) : (resume k s).ctl.fault = s.ctl.fault := by
  obtain ⟨p, caller⟩ := k
  have hok : ∀ v, (finish caller v .ok s).ctl.fault = s.ctl.fault := fun v =>
    finish_fault v fun _ => ⟨s, rfl, rfl⟩
  cases p with
  | awaitComplete | startCondition | addressedSend | stopCondition => exact hok _
  | writeByte => exact finish_fault _ fun _ => ⟨_, rfl, rfl⟩
  | addressedStart a d =>
    by_cases ho : startObtained s.ctl.status = true
    · exact (SendsAddress.addressed (a := a) (d := d)).resume_fault caller hp hi ho
    · simp only [resume, if_neg ho, hok]
  | retryStart a d =>
    by_cases ho : startObtained s.ctl.status = true
    · exact (SendsAddress.retrying (a := a) (d := d)).resume_fault caller hp hi ho
    · have hc : s.ctl.configured = true := by
        simp only [pointOk, Bool.and_eq_true] at hp
        exact hp.1
      simp only [resume, if_neg ho]
      exact issueAndWait_fault hc hi rfl
  | retrySend a d =>
    simp only [resume]
    split
    · exact hok _
    · exact issueAndWait_fault hp hi rfl
  | retryStop a d => exact issueAndWait_fault hp hi rfl
  | readByte =>
    obtain ⟨b, hb⟩ : ∃ b, s.ctl.data = some b := by
      simpa [pointOk, hi, Option.isSome_iff_exists] using hp
    simp only [resume, regRead_data hi hb]
    refine finish_fault _ ?_
    rintro rfl
    refine storeRead_of_slot _ ?_
    simp only [callerOk, Bool.and_eq_true, decide_eq_true_eq] at hcaller
    exact hcaller.2

theorem poll_fault (hok : hostOk s = true) (hk : s.control = .polling k) :
    (poll k s).ctl.fault = s.ctl.fault := by
  cases hi : s.ctl.inflight with
  | some cmd => rw [poll_busy hi]
  | none =>
    obtain ⟨hp, hcaller⟩ := (hostOk_polling_iff hk).mp hok
    rw [poll_idle hi, resume_fault hp hcaller hi]

end Resume

/-- Settles O36: the environment's step writes no fault, and a pass of the wait raises none. -/
theorem waitingPrimitiveNeverFaults : Obligations.WaitingPrimitiveNeverFaults := by
  rintro s k ⟨-, -, -, hok⟩ hf hk
  have hpass : (poll k (advance s)).ctl.fault = none :=
    (poll_fault (s := advance s) hok hk).trans hf
  cases hi : s.ctl.inflight with
  | none => exact ⟨_, step_of_polling hf (.inl hi) hk, hpass⟩
  | some cmd =>
    cases ht : s.turn with
    | host => exact ⟨_, step_of_polling hf (.inr ht) hk, hpass⟩
    | environment =>
      obtain ⟨-, -, -, hkept⟩ := completionRule_ratesKept cmd (Config.draw s.tick) s.ctl
      exact ⟨_, step_of_environment hf hi ht, hkept.trans hf⟩

/-! ## The first command of a primitive (R96 to R102) -/

theorem PrimitiveOpens.exec_eq {i : Instr} {p : Point} {cmd : Command} (h : PrimitiveOpens i p cmd)
    (s : State) : exec i s = act s (issueAndWait ⟨p, .host⟩ cmd s) := by
  cases h <;> rfl

/-- A primitive whose first command can be issued waits for it. -/
theorem PrimitiveOpens.exec_of_canIssue {i : Instr} {p : Point} {cmd : Command} {s : State}
    (h : PrimitiveOpens i p cmd) (hcan : CanIssue cmd s) :
    exec i s = .next (s.issued ⟨p, .host⟩ cmd) := by
  obtain ⟨hf, hc, hi, hm⟩ := hcan
  rw [h.exec_eq, act_of_no_fault hf, issueAndWait_eq_issued hc hi hm]

/-- What holds of every primitive of the host that returns after one command, whatever the answer. -/
theorem ret_complete_frame (v : ReturnValue) (cmd : Command) (d : Draw) (s : State) :
    (ret v (complete cmd d s)).control = .ready ∧ (ret v (complete cmd d s)).ctl.inflight = none
      ∧ RatesKept s.ctl (ret v (complete cmd d s)).ctl ∧ HostKept s (ret v (complete cmd d s)) :=
  ⟨rfl, rfl, completionRule_ratesKept cmd d s.ctl, rfl, rfl, rfl, rfl, rfl⟩

/-! ## startCondition (R96) -/

@[simp] theorem startObtained_startStatus (p : Phase) : startObtained (startStatus p) = true := by
  cases p <;> rfl

theorem resume_startCondition (s : State) :
    resume ⟨.startCondition, .host⟩ s = ret (.bool (startObtained s.ctl.status)) s := rfl

/-- Settles O38: one START, whose answer is what is returned. -/
theorem startConditionReturns : Obligations.StartConditionReturns := by
  intro s d hcan
  refine ⟨_, PrimitiveOpens.startCondition.exec_of_canIssue hcan, rfl, ?_⟩
  rw [serve_issued, resume_startCondition]
  refine ⟨fun ho => ?_, fun ho => ?_, ret_complete_frame _ _ _ _⟩
  · rw [complete_start_owned ho]
    exact ⟨by simp, rfl, rfl⟩
  · rw [complete_start_arbLost ho]
    exact ⟨rfl, rfl, rfl⟩

/-! ## addressedStart (R97) -/

theorem slaDir_sla (a : SlaveAddr) (d : Dir) : slaDir (sla a d) = d := by
  rw [slaDir, sla_getLsbD_zero]
  cases d <;> rfl

@[simp] theorem addressAcked_ack (d : Dir) : addressAcked (addressStatus d .ack) = true := by
  cases d <;> rfl

@[simp] theorem addressAcked_nack (d : Dir) : addressAcked (addressStatus d .nack) = false := by
  cases d <;> rfl

/-- The address byte sent after a START that obtained the bus, the host waiting for its answer. -/
def State.addressing (a : SlaveAddr) (d : Dir) (k : Await) (s : State) : State :=
  { s with
    ctl := { s.ctl with
      inflight := some (.send (sla a d)), data := some (sla a d),
      status := startStatus s.ctl.phase, phase := .started, addrPending := true,
      direction := none, trace := s.ctl.trace ++ [.start (startStatus s.ctl.phase)] }
    control := .polling k }

section Address
variable {s : State} {a : SlaveAddr} {d : Dir} {p q : Point} {draw : Draw} {k : Await}

theorem SendsAddress.serve_owned (h : SendsAddress a d p q) {caller : Caller}
    (hc : s.ctl.configured = true) (hi : s.ctl.inflight = some .start)
    (hk : s.control = .polling ⟨p, caller⟩) (ho : draw.start = .owned) :
    serve draw s = s.addressing a d ⟨q, caller⟩ := by
  have hstart := complete_start_owned (s := s) ho
  have hres := h.resume_eq caller (s := complete .start draw s) (by simp [hstart])
  rw [serve_issues draw hi hk hres hc (by rw [hstart]; rfl), hstart]
  rfl

/-- The address byte, acknowledged, opens the session in its direction (R64, R88). -/
theorem complete_addressing_ack (ha : draw.ack = .ack) :
    complete (.send (sla a d)) draw (s.addressing a d k) = { s with
      ctl := { s.ctl with
        inflight := none, data := some (sla a d), status := addressStatus d .ack,
        phase := .addressed, addrPending := false, direction := some d
        trace := s.ctl.trace
          ++ [.start (startStatus s.ctl.phase), .send (sla a d) (addressStatus d .ack)] }
      control := .polling k } := by
  rw [complete_address_ack rfl ha, slaDir_sla]
  simp [State.addressing]

/-- The address byte, not acknowledged, leaves the session as the START left it (R88). -/
theorem complete_addressing_nack (ha : draw.ack = .nack) :
    complete (.send (sla a d)) draw (s.addressing a d k) = { s with
      ctl := { s.ctl with
        inflight := none, data := some (sla a d), status := addressStatus d .nack,
        phase := .started, addrPending := false, direction := none
        trace := s.ctl.trace
          ++ [.start (startStatus s.ctl.phase), .send (sla a d) (addressStatus d .nack)] }
      control := .polling k } := by
  rw [complete_address_nack rfl ha, slaDir_sla]
  simp [State.addressing]

theorem resume_addressedStart_lost (ho : startObtained s.ctl.status = false) :
    resume ⟨.addressedStart a d, .host⟩ s = ret (.bool false) s := by
  simp [resume, ho, finish]

theorem resume_addressedSend (s : State) :
    resume ⟨.addressedSend, .host⟩ s = ret (.bool (addressAcked s.ctl.status)) s := rfl

/-- The answer to the address byte is what `addressedStart` returns. -/
theorem serve_addressing (s : State) :
    serve draw (s.addressing a d ⟨.addressedSend, .host⟩)
      = ret (.bool (addressAcked
          (complete (.send (sla a d)) draw (s.addressing a d ⟨.addressedSend, .host⟩)).ctl.status))
        (complete (.send (sla a d)) draw (s.addressing a d ⟨.addressedSend, .host⟩)) :=
  (serve_eq_resume draw rfl rfl).trans (resume_addressedSend _)

end Address

/-- Settles O39: a START that is lost returns at once; after one that is obtained the answer to the
address byte is what is returned. -/
theorem addressedStartReturns : Obligations.AddressedStartReturns := by
  intro s a d d1 d2 hcan
  have ⟨_, hc, _, _⟩ := hcan
  refine ⟨_, (PrimitiveOpens.addressedStart a d).exec_of_canIssue hcan, rfl, fun ho => ?_,
    fun ho => ?_⟩
  · rw [serve_issued, complete_start_arbLost ho, resume_addressedStart_lost rfl]
    exact ⟨rfl, rfl, rfl, rfl, rfl, rfl, rfl⟩
  · have hsent : serve d1 (s.issued ⟨.addressedStart a d, .host⟩ .start) = _ :=
      SendsAddress.addressed.serve_owned hc rfl rfl ho
    simp only [serveAll, hsent, serve_addressing]
    refine ⟨rfl, rfl, rfl, rfl, completionRule_ratesKept _ _ _, ⟨rfl, rfl, rfl, rfl, rfl⟩,
      fun ha => ?_, fun ha => ?_⟩
    · rw [complete_addressing_ack ha]
      exact ⟨by simp, rfl, rfl, rfl, rfl⟩
    · rw [complete_addressing_nack ha]
      exact ⟨by simp, rfl, rfl, rfl, rfl⟩

/-! ## retryingAddressedStart (R98) -/

section Retry
variable {s : State} {a : SlaveAddr} {d : Dir} {d1 d2 : Draw}

/-- The state after `n` rounds of the retry that are not acknowledged, with the next START in flight: the
session is stopped, and DATA holds the address byte. -/
def State.afterRounds (a : SlaveAddr) (d : Dir) (s : State) : Nat → State
  | 0 => s
  | n + 1 => { s with ctl := { s.ctl with
      data := some (sla a d), status := .noInfo, phase := .stopped, addrPending := false,
      direction := none,
      trace := s.ctl.trace ++ retryRounds (startStatus s.ctl.phase) a d (n + 1) } }

theorem afterRounds_kept (n : Nat) :
    (s.afterRounds a d n).control = s.control
      ∧ (s.afterRounds a d n).ctl.inflight = s.ctl.inflight
      ∧ (s.afterRounds a d n).returned = s.returned
      ∧ RatesKept s.ctl (s.afterRounds a d n).ctl ∧ HostKept s (s.afterRounds a d n) := by
  cases n <;> exact ⟨rfl, rfl, rfl, ⟨rfl, rfl, rfl, rfl⟩, rfl, rfl, rfl, rfl, rfl⟩

theorem afterRounds_trace (n : Nat) :
    (s.afterRounds a d n).ctl.trace
      = s.ctl.trace ++ retryRounds (startStatus s.ctl.phase) a d n := by
  cases n with
  | zero => exact (List.append_nil _).symm
  | succ n => rfl

/-- The START after the first round is from a stopped session (R86). -/
theorem startStatus_afterRounds (n : Nat) :
    startStatus (s.afterRounds a d n).ctl.phase
      = if n = 0 then startStatus s.ctl.phase else .start := by
  cases n <;> rfl

/-- A round first, and then `n` more. -/
theorem afterRounds_one_afterRounds (n : Nat) :
    (s.afterRounds a d 1).afterRounds a d n = s.afterRounds a d (n + 1) := by
  cases n with
  | zero => rfl
  | succ n => simp [State.afterRounds, retryRounds, startStatus]

/-- The START of a retry is in flight, and the host waits for it. -/
structure Trying (a : SlaveAddr) (d : Dir) (s : State) : Prop where
  configured : s.ctl.configured = true
  inflight : s.ctl.inflight = some .start
  control : s.control = .polling ⟨.retryStart a d, .host⟩

theorem Trying.afterRounds (h : Trying a d s) (n : Nat) : Trying a d (s.afterRounds a d n) := by
  obtain ⟨hcontrol, hinflight, -, ⟨hconf, -⟩, -⟩ := afterRounds_kept (s := s) (a := a) (d := d) n
  exact ⟨hconf.trans h.configured, hinflight.trans h.inflight, hcontrol.trans h.control⟩

theorem resume_retryStart_lost (ho : startObtained s.ctl.status = false) :
    resume ⟨.retryStart a d, .host⟩ s = issueAndWait ⟨.retryStart a d, .host⟩ .start s := by
  simp [resume, ho]

theorem resume_retrySend_acked (ha : addressAcked s.ctl.status = true) :
    resume ⟨.retrySend a d, .host⟩ s = ret .unit s := by
  simp [resume, ha, finish]

theorem resume_retrySend_nacked (ha : addressAcked s.ctl.status = false) :
    resume ⟨.retrySend a d, .host⟩ s = issueAndWait ⟨.retryStop a d, .host⟩ .stop s := by
  simp [resume, ha]

theorem Trying.serve_owned (h : Trying a d s) (ho : d1.start = .owned) :
    serve d1 s = s.addressing a d ⟨.retrySend a d, .host⟩ :=
  SendsAddress.retrying.serve_owned h.configured h.inflight h.control ho

/-- A lost START is followed by another. -/
theorem Trying.serve_arbLost (h : Trying a d s) (ho : d1.start = .arbLost) :
    serve d1 s = (complete .start d1 s).issued ⟨.retryStart a d, .host⟩ .start :=
  serve_issues d1 h.inflight h.control
    (resume_retryStart_lost (by rw [complete_start_arbLost ho]; rfl)) h.configured rfl

/-- An address byte that is not acknowledged is followed by a STOP. -/
theorem serve_retrySend_nack {draw : Draw} (hc : s.ctl.configured = true)
    (ha : draw.ack = .nack) :
    serve draw (s.addressing a d ⟨.retrySend a d, .host⟩)
      = (complete (.send (sla a d)) draw (s.addressing a d ⟨.retrySend a d, .host⟩)).issued
        ⟨.retryStop a d, .host⟩ .stop :=
  serve_issues draw rfl rfl (resume_retrySend_nacked (by rw [complete_addressing_nack ha]; simp))
    hc rfl

/-- The STOP of a round is followed by the next START. -/
theorem serve_retryStop (draw : Draw) (hc : s.ctl.configured = true) :
    serve draw (s.issued ⟨.retryStop a d, .host⟩ .stop)
      = (complete .stop draw (s.issued ⟨.retryStop a d, .host⟩ .stop)).issued
        ⟨.retryStart a d, .host⟩ .start :=
  serve_issues draw rfl rfl rfl hc rfl

/-- A round that is not acknowledged sends the address, stops, and starts again. -/
theorem Trying.serve_round (h : Trying a d s) {r : Draw × Draw × Draw}
    (ho : r.1.start = .owned) (ha : r.2.1.ack = .nack) :
    serveAll [r.1, r.2.1, r.2.2] s = s.afterRounds a d 1 := by
  simp only [serveAll]
  rw [h.serve_owned ho, serve_retrySend_nack h.configured ha, complete_addressing_nack ha,
    serve_retryStop]
  · simp [State.issued, State.afterRounds, retryRounds, retryRound, accept, complete, completionRule,
      completeStop, h.inflight, h.control]
  · exact h.configured

/-- By induction on the rounds. -/
theorem Trying.serve_rounds (h : Trying a d s) (rounds : List (Draw × Draw × Draw))
    (hr : ∀ r ∈ rounds, r.1.start = .owned ∧ r.2.1.ack = .nack) :
    serveAll (rounds.flatMap fun r => [r.1, r.2.1, r.2.2]) s = s.afterRounds a d rounds.length := by
  induction rounds generalizing s with
  | nil => rfl
  | cons r rest ih =>
    obtain ⟨⟨ho, ha⟩, hrest⟩ := List.forall_mem_cons.mp hr
    rw [List.flatMap_cons, serveAll_append, h.serve_round ho ha, ih (h.afterRounds 1) hrest,
      afterRounds_one_afterRounds, List.length_cons]

/-- A round that is acknowledged returns. -/
theorem Trying.serve_last (h : Trying a d s) (ho : d1.start = .owned) (ha : d2.ack = .ack) :
    serveAll [d1, d2] s = { s with
      ctl := { s.ctl with
        inflight := none, data := some (sla a d), status := addressStatus d .ack,
        phase := .addressed, addrPending := false, direction := some d
        trace := s.ctl.trace
          ++ [.start (startStatus s.ctl.phase), .send (sla a d) (addressStatus d .ack)] }
      control := .ready, returned := some .unit } := by
  simp only [serveAll]
  rw [h.serve_owned ho, serve_eq_resume d2 rfl rfl, complete_addressing_ack ha,
    resume_retrySend_acked (addressAcked_ack d)]
  rfl

end Retry

/-- Settles O40: the rounds, and then the round that is acknowledged. -/
theorem retryReturnsAfterTheFirstAcknowledge :
    Obligations.RetryReturnsAfterTheFirstAcknowledge := by
  intro s a d rounds d1 d2 hcan hr ho ha
  have ⟨_, hc, _, _⟩ := hcan
  have htry : Trying a d (s.issued ⟨.retryStart a d, .host⟩ .start) := ⟨hc, rfl, rfl⟩
  obtain ⟨hcontrol, hinflight, hreturned, hrates, hhost⟩ := afterRounds_kept (a := a) (d := d)
    (s := s.issued ⟨.retryStart a d, .host⟩ .start) rounds.length
  refine ⟨_, (PrimitiveOpens.retryStart a d).exec_of_canIssue hcan, rfl, ?_⟩
  rw [serveAll_append, htry.serve_rounds rounds hr, (htry.afterRounds _).serve_last ho ha]
  refine ⟨⟨hcontrol, hinflight, hreturned, afterRounds_trace _⟩, rfl, rfl, rfl,
    ⟨rfl, rfl, rfl, rfl⟩, hrates, hhost, ?_⟩
  simp only [afterRounds_trace, startStatus_afterRounds]
  rfl

/-- Settles O41: the lost START is followed by another, and the host waits as before. -/
theorem retryAfterArbitrationLoss : Obligations.RetryAfterArbitrationLoss := by
  intro s a d d1 hc hi hk ho
  rw [Trying.serve_arbLost ⟨hc, hi, hk⟩ ho, complete_start_arbLost ho, State.issued, ← hk]
  simp [accept, hi]

/-! ## writeByte (R99) -/

/-- No address byte's answer is that of a data byte (R88). -/
@[simp] theorem dataAcked_addressStatus (d : Dir) (answer : AckDraw) :
    dataAcked (addressStatus d answer) = false := by
  cases d <;> cases answer <;> rfl

theorem resume_writeByte (s : State) :
    resume ⟨.writeByte, .host⟩ s = ret (.bool (dataAcked s.ctl.status)) s := rfl

/-- The status of an address byte by its answer (R88). -/
theorem complete_address_status {s : State} (b : Byte) (draw : Draw)
    (hp : s.ctl.addrPending = true) :
    (complete (.send b) draw s).ctl.status = addressStatus (slaDir b) draw.ack := by
  cases ha : draw.ack with
  | ack => rw [complete_address_ack hp ha]
  | nack => rw [complete_address_nack hp ha]

/-- A data byte is answered in Transferring (R88). -/
theorem complete_data_phase {s : State} (b : Byte) (draw : Draw)
    (hp : s.ctl.addrPending = false) : (complete (.send b) draw s).ctl.phase = .transferring := by
  cases ha : draw.ack with
  | ack => rw [complete_data_ack hp ha]
  | nack => rw [complete_data_nack hp ha]

/-- Settles O42: one SEND, whose status is that of a data byte or of an address byte. -/
theorem writeByteReturns : Obligations.WriteByteReturns := by
  intro s v d hcan
  refine ⟨_, (PrimitiveOpens.writeByte v).exec_of_canIssue hcan, rfl, ?_⟩
  rw [serve_issued, resume_writeByte]
  refine ⟨fun hp ha => ?_, fun hp ha => ?_, fun hp => complete_data_phase v d hp, fun hp => ?_,
    ret_complete_frame _ _ _ _⟩
  · rw [complete_data_ack (s := s.issued _ _) hp ha]
    exact ⟨rfl, rfl⟩
  · rw [complete_data_nack (s := s.issued _ _) hp ha]
    exact ⟨rfl, rfl⟩
  · rw [ret_returned, ret_ctl, complete_address_status (s := s.issued _ _) v d hp,
      dataAcked_addressStatus]
    exact ⟨rfl, rfl⟩

/-! ## readByte and stopCondition (R100 to R102) -/

/-- DATA's byte comes through the 16-bit read (R43, R100). -/
theorem lowByte_setWidth (b : Byte) : lowByte (b.setWidth 16) = b := by
  apply BitVec.eq_of_toNat_eq
  simpa [lowByte] using b.isLt

theorem resume_readByte {s : State} {b : Byte} (hi : s.ctl.inflight = none)
    (hb : s.ctl.data = some b) : resume ⟨.readByte, .host⟩ s = ret (.byte b) s := by
  simp only [resume, regRead_data hi hb, lowByte_setWidth, finish]

theorem resume_stopCondition (s : State) : resume ⟨.stopCondition, .host⟩ s = ret .unit s := rfl

/-- Settles O43: the byte drawn is in DATA when the wait ends. -/
theorem readByteReturns : Obligations.ReadByteReturns := by
  constructor
  · intro s d hcan
    have ⟨_, _, hi, _⟩ := hcan
    refine ⟨_, PrimitiveOpens.requestMore.exec_of_canIssue hcan, rfl, ?_⟩
    rw [serve_issued, resume_readByte rfl rfl]
    simp only [hi]
    rfl
  · intro s d hcan
    have ⟨_, _, hi, _⟩ := hcan
    refine ⟨_, PrimitiveOpens.lastByte.exec_of_canIssue hcan, rfl, ?_⟩
    rw [serve_issued, resume_readByte rfl rfl]
    simp only [hi]
    rfl

/-- Settles O44: one STOP. -/
theorem stopConditionReturns : Obligations.StopConditionReturns := by
  intro s d hcan
  have ⟨_, _, hi, _⟩ := hcan
  refine ⟨_, PrimitiveOpens.stopCondition.exec_of_canIssue hcan, rfl, ?_⟩
  rw [serve_issued, resume_stopCondition]
  simp only [hi]
  rfl

/-! ## A first command that is not accepted (41_bus_commands.md R81, R82) -/

/-- `acc mod 256` as a byte (R38, R106). -/
theorem literalByte_eq_ofNat_mod (acc : Nat) : literalByte acc = BitVec.ofNat 8 (acc % 256) := by
  apply BitVec.eq_of_toNat_eq
  simp [literalByte]

theorem literalByte_toNat (v : Byte) : literalByte v.toNat = v := by
  simp [literalByte]

/-- An instruction that opens with a command, issued from a state `u` with the same controller: what its
rule writes before the issue is in `u`. -/
def OpensWith (i : Instr) (cmd : Command) (s u : State) : Prop :=
  u.ctl = s.ctl ∧ ∃ k, exec i s = act s (issueAndWait k cmd u)

section OpensWith
variable {i : Instr} {p : Point} {cmd : Command} {s u : State}

theorem PrimitiveOpens.opensWith (h : PrimitiveOpens i p cmd) (s : State) : OpensWith i cmd s s :=
  ⟨rfl, _, h.exec_eq s⟩

theorem opensWith_readToken (hexec : exec i s = act s (readToken cmd s))
    (hslot : s.interp.readIdx < s.interp.readTargets.length) : OpensWith i cmd s s :=
  ⟨rfl, _, by rw [hexec, readToken, if_pos hslot]⟩

theorem opensWith_flushToken {b : Byte} (hexec : exec i s = act s (flushToken u))
    (hctl : u.ctl = s.ctl) (hpend : u.interp.pending = true) (hb : literalByte u.interp.acc = b) :
    OpensWith i (.send b) s u :=
  ⟨hctl, _, by rw [hexec, flushToken, if_pos hpend, hb]⟩

/-- A write token flushes the value it has taken, which is a byte (R119). -/
theorem opensWith_writeToken {v : Byte} (hexec : exec i s = act s (writeToken s))
    (hv : s.interp.writeValues[s.interp.writeIdx]? = some v) :
    OpensWith i (.send v) s { s with interp := { s.interp with
      pending := true, acc := v.toNat, writeIdx := s.interp.writeIdx + 1 } } := by
  have hwrite : writeToken s = flushToken { s with interp := { s.interp with
      pending := true, acc := v.toNat, writeIdx := s.interp.writeIdx + 1 } } := by
    simp only [writeToken, readWriteValue, hv]
  rw [hwrite] at hexec
  exact opensWith_flushToken hexec rfl rfl (literalByte_toNat v)

/-- The fault of the command is the instruction's own (R81, R132). -/
theorem OpensWith.exec_of_error {r : Fault} (h : OpensWith i cmd s u) (hf : s.ctl.fault = none)
    (hr : issue cmd u = .error r) : exec i s = .next (raise r u) := by
  obtain ⟨-, k, hexec⟩ := h
  rw [hexec, act_of_no_fault hf, issueAndWait_of_error k hr]

end OpensWith

/-- Settles O45: each of the instructions opens with its command, and the three faults are those of the
command's issue. -/
theorem primitiveFaults : Obligations.PrimitiveFaults := by
  intro s u i cmd hf hrow
  have hopens : OpensWith i cmd s u := by
    rcases hrow with ⟨rfl, hrow⟩ | ⟨hi, v, hv, rfl, rfl⟩
    · rcases hrow with ⟨rfl, rfl⟩ | ⟨a, d, rfl, rfl⟩ | ⟨a, d, rfl, rfl⟩ | ⟨v, rfl, rfl⟩ | ⟨rfl, rfl⟩
        | ⟨rfl, rfl⟩ | ⟨rfl, rfl⟩ | ⟨hi, rfl⟩ | ⟨hi, rfl⟩ | ⟨hi, rfl, hslot⟩ | ⟨hi, rfl, hslot⟩
        | ⟨hi, hpend, rfl⟩
      · exact PrimitiveOpens.startCondition.opensWith u
      · exact (PrimitiveOpens.addressedStart a d).opensWith u
      · exact (PrimitiveOpens.retryStart a d).opensWith u
      · exact (PrimitiveOpens.writeByte v).opensWith u
      · exact PrimitiveOpens.requestMore.opensWith u
      · exact PrimitiveOpens.lastByte.opensWith u
      · exact PrimitiveOpens.stopCondition.opensWith u
      · rcases hi with rfl | rfl <;> exact ⟨rfl, _, rfl⟩
      · rcases hi with rfl | rfl <;> exact ⟨rfl, _, rfl⟩
      · rcases hi with rfl | rfl <;> exact opensWith_readToken rfl hslot
      · rcases hi with rfl | rfl <;> exact opensWith_readToken rfl hslot
      · rcases hi with rfl | rfl <;>
          exact opensWith_flushToken rfl rfl hpend (literalByte_eq_ofNat_mod _)
    · rcases hi with rfl | rfl <;> exact opensWith_writeToken rfl hv
  have ⟨hctl, _⟩ := hopens
  rw [← hctl]
  exact ⟨fun hc => hopens.exec_of_error hf (issue_unconfigured cmd hc),
    fun hc hi => hopens.exec_of_error hf (issue_busy cmd hc hi),
    fun hc hi hm => hopens.exec_of_error hf (issue_misuse hc hi hm)⟩

end Sys2Proof.Machine

namespace Sys2Proof.Machine

/-! ## A token that waits for its primitive (43_command_interpreter.md R104, R127) -/

section TokenWait
variable {i : Instr} {k : Await} {cmd : Command} {s u : State}

/-- A token whose command can be issued waits for it; what its rule writes before the issue is in `u`. -/
theorem exec_of_issueAndWait (hexec : exec i s = act s (issueAndWait k cmd u))
    (hctl : u.ctl = s.ctl) (hcan : CanIssue cmd s) : exec i s = .next (u.issued k cmd) := by
  obtain ⟨hf, hc, hi, hm⟩ := hcan
  rw [← hctl] at hc hi hm
  rw [hexec, act_of_no_fault hf, issueAndWait_eq_issued hc hi hm]

/-- A token that goes on, once answered, by making `x` of `S` moves the cursor past its character, drops
the primitive's result, and leaves the controller as the completion does. -/
theorem serve_issued_token {x : Interp} (d : Draw)
    (hres : resume k (complete cmd d (u.issued k cmd))
      = nextCharacter { complete cmd d (u.issued k cmd) with interp := x }) :
    (serve d (u.issued k cmd)).interp = { x with cursor := x.cursor + 1 }
      ∧ (serve d (u.issued k cmd)).control = .ready
      ∧ (serve d (u.issued k cmd)).returned = u.returned
      ∧ (serve d (u.issued k cmd)).ctl = (complete cmd d (u.issued k cmd)).ctl := by
  rw [serve_issued, hres]
  exact ⟨rfl, rfl, rfl, rfl⟩

end TokenWait

theorem resume_startCondition_token (s : State) :
    resume ⟨.startCondition, .interpreter⟩ s = nextCharacter s := rfl

theorem resume_stopCondition_token (s : State) :
    resume ⟨.stopCondition, .interpreter⟩ s = nextCharacter s := rfl

/-- The flush of a literal ends with its reset (R106). -/
theorem resume_writeByte_token (s : State) :
    resume ⟨.writeByte, .interpreter⟩ s
      = nextCharacter { s with interp := clearLiteral s.interp } := rfl

/-! ## The start and stop tokens (R109 to R112) -/

/-- Settles O51: a START, after whose answer the token only goes on. -/
theorem startTokens : Obligations.StartTokens := by
  intro i s d hi hcan
  have hexec : exec i s = act s (issueAndWait ⟨.startCondition, .interpreter⟩ .start s) := by
    rcases hi with rfl | rfl <;> rfl
  exact ⟨_, exec_of_issueAndWait hexec rfl hcan, rfl,
    serve_issued_token d (resume_startCondition_token _)⟩

/-- Settles O52: a STOP, after whose answer the token only goes on. -/
theorem stopTokens : Obligations.StopTokens := by
  intro i s d hi hcan
  have hexec : exec i s = act s (issueAndWait ⟨.stopCondition, .interpreter⟩ .stop s) := by
    rcases hi with rfl | rfl <;> rfl
  exact ⟨_, exec_of_issueAndWait hexec rfl hcan, rfl,
    serve_issued_token d (resume_stopCondition_token _)⟩

/-! ## The read tokens (R107, R115 to R118) -/

/-- The record of the interpreter with the byte in the next slot, and counted (R107). -/
def Interp.stored (v : Byte) (x : Interp) : Interp :=
  { x with
    readTargets := x.readTargets.set x.readIdx v
    readIdx := x.readIdx + 1, readCount := x.readCount + 1 }

section Read
variable {s : State}

theorem storeRead_eq_stored (v : Byte) (h : s.interp.readIdx < s.interp.readTargets.length) :
    storeRead v s = .ok { s with interp := s.interp.stored v } := by
  rcases storeRead_cases v s with ⟨-, e⟩ | ⟨hfull, -⟩
  · exact e
  · omega

theorem readToken_of_slot (cmd : Command) (h : s.interp.readIdx < s.interp.readTargets.length) :
    readToken cmd s = issueAndWait ⟨.readByte, .interpreter⟩ cmd s :=
  if_pos h

/-- The byte read, which is the one in DATA, is stored (R100, R107). -/
theorem resume_readByte_token {v : Byte} (hi : s.ctl.inflight = none) (hv : s.ctl.data = some v)
    (h : s.interp.readIdx < s.interp.readTargets.length) :
    resume ⟨.readByte, .interpreter⟩ s
      = nextCharacter { s with interp := s.interp.stored v } := by
  simp only [resume, regRead_data hi hv, lowByte_setWidth, finish, storeRead_eq_stored v h]
  rfl

end Read

/-- Settles O54: either RECV leaves the byte drawn in DATA, and the slot is still there. -/
theorem readTokens : Obligations.ReadTokens := by
  intro i cmd s d hrow hcan hslot
  have hexec : exec i s = act s (issueAndWait ⟨.readByte, .interpreter⟩ cmd s) := by
    rw [← readToken_of_slot cmd hslot]
    rcases hrow with ⟨rfl | rfl, rfl⟩ | ⟨rfl | rfl, rfl⟩ <;> rfl
  have hissued : s.issued ⟨.readByte, .interpreter⟩ cmd = { s with
      ctl := { s.ctl with inflight := some cmd }
      control := .polling ⟨.readByte, .interpreter⟩ } := by
    rcases hrow with ⟨-, rfl⟩ | ⟨-, rfl⟩ <;> rfl
  have hdata : (complete cmd d (s.issued ⟨.readByte, .interpreter⟩ cmd)).ctl.data
      = some d.byte := by
    rcases hrow with ⟨-, rfl⟩ | ⟨-, rfl⟩ <;> rfl
  exact ⟨_, exec_of_issueAndWait hexec rfl hcan, hissued,
    serve_issued_token (x := s.interp.stored d.byte) d (resume_readByte_token rfl hdata hslot)⟩

/-! ## Tokens that are done at once (R104) -/

/-- A token that issues no command writes what is in `u` and moves the cursor. -/
theorem exec_of_nextCharacter {i : Instr} {s u : State} (hexec : exec i s = act s (nextCharacter u))
    (hf : s.ctl.fault = none) (hready : u.control = .ready) :
    exec i s = .next { u with interp := { u.interp with cursor := u.interp.cursor + 1 } } := by
  rw [hexec, act_of_no_fault hf, nextCharacter, ← hready]

/-! ## The delimiters and the write tokens (R106, R119 to R122) -/

section Flush
variable {s : State}

theorem flushToken_of_pending (h : s.interp.pending = true) :
    flushToken s
      = issueAndWait ⟨.writeByte, .interpreter⟩ (.send (literalByte s.interp.acc)) s :=
  if_pos h

theorem flushToken_of_not_pending (h : s.interp.pending = false) :
    flushToken s = nextCharacter { s with interp := clearLiteral s.interp } :=
  if_neg (by simp [h])

/-- The write value taken in the literal's place (R119). -/
def State.taken (v : Byte) (s : State) : State :=
  { s with interp := { s.interp with
    pending := true, acc := v.toNat, writeIdx := s.interp.writeIdx + 1 } }

/-- The value taken is a byte, so the flush writes it whole (R106, R119). -/
theorem writeToken_of_value {v : Byte} (h : s.interp.writeValues[s.interp.writeIdx]? = some v) :
    writeToken s = issueAndWait ⟨.writeByte, .interpreter⟩ (.send v) (s.taken v) := by
  have hflush : writeToken s = flushToken (s.taken v) := by
    rw [writeToken, readWriteValue, h]
    rfl
  have hbyte : literalByte (s.taken v).interp.acc = v := literalByte_toNat v
  rw [hflush, flushToken_of_pending rfl, hbyte]

end Flush

/-- Settles O55: the value taken is sent, and the literal that stood for it is then reset. -/
theorem writeTokens : Obligations.WriteTokens := by
  intro i s v d hi hv hcan
  have hexec : exec i s
      = act s (issueAndWait ⟨.writeByte, .interpreter⟩ (.send v) (s.taken v)) := by
    rw [← writeToken_of_value hv]
    rcases hi with rfl | rfl <;> rfl
  exact ⟨_, exec_of_issueAndWait hexec rfl hcan, rfl,
    serve_issued_token (x := clearLiteral (s.taken v).interp) d (resume_writeByte_token _)⟩

/-- Settles O56: the flush with nothing pending, and with a literal pending. -/
theorem delimiterTokens : Obligations.DelimiterTokens := by
  intro i s d hi hf
  have hexec : exec i s = act s (flushToken s) := by rcases hi with rfl | rfl <;> rfl
  refine ⟨fun hpend hready => ?_, fun hpend hcan => ?_⟩
  · rw [flushToken_of_not_pending hpend] at hexec
    exact exec_of_nextCharacter hexec hf hready
  · rw [flushToken_of_pending hpend, literalByte_eq_ofNat_mod] at hexec
    exact ⟨_, exec_of_issueAndWait hexec rfl hcan, rfl,
      serve_issued_token (x := clearLiteral s.interp) d (resume_writeByte_token _)⟩

/-! ## The radix, delay, digit and ignored characters (R113, R114, R123 to R125) -/

/-- Settles O53: each writes its radix, whatever the radix was, and is done. -/
theorem radixTokens : Obligations.RadixTokens := fun s hf hready =>
  ⟨exec_of_nextCharacter (u := { s with interp := { s.interp with radix := .sixteen } })
      rfl hf hready,
    exec_of_nextCharacter (u := { s with interp := { s.interp with radix := .two } })
      rfl hf hready⟩

/-- Settles O57: it appends its event, and is done. -/
theorem exec_delay1us : Obligations.DelayToken := fun s hf hready =>
  exec_of_nextCharacter
    (u := { s with ctl := { s.ctl with trace := s.ctl.trace ++ [.delay1us] } }) rfl hf hready

section Digit
variable {i : Instr} {dv : Nat} {s : State}

/-- Every digit row is the digit token of its value (R69). -/
theorem exec_digitRow (h : (i, dv) ∈ digitRows) : exec i s = act s (digitToken dv s) := by
  have hrows : ∀ row ∈ digitRows, exec row.1 s = act s (digitToken row.2 s) := by
    simp only [digitRows, List.forall_mem_cons, List.not_mem_nil, false_implies, implies_true,
      and_true]
    and_intros <;> rfl
  exact hrows (i, dv) h

theorem digitToken_of_lt (h : dv < s.interp.radix.base) :
    digitToken dv s = nextCharacter { s with interp := { s.interp with
      acc := s.interp.acc * s.interp.radix.base + dv, pending := true } } :=
  if_pos (decide_eq_true h)

/-- A digit that is not valid under the radix is ignored (R125). -/
theorem digitToken_of_le (h : s.interp.radix.base ≤ dv) : digitToken dv s = nextCharacter s :=
  if_neg (by simpa [digitValid] using h)

end Digit

/-- Settles O58: the row's value is below the radix, so the digit is valid. -/
theorem digitRowsAccumulate : Obligations.DigitRowsAccumulate := by
  intro i dv s hrow hf hready hlt
  have hexec := exec_digitRow (s := s) hrow
  rw [digitToken_of_lt hlt] at hexec
  exact exec_of_nextCharacter hexec hf hready

/-- Settles O59: the ignore row, the bytes that decode to it, and the digits that are not valid. -/
theorem ignoredCharacters : Obligations.IgnoredCharacters := by
  refine ⟨fun b s hf hready => exec_of_nextCharacter rfl hf hready,
    fun b hb => congrArg Except.ok (decodeToken_ignore hb), fun i dv s hrow hf hready hle => ?_⟩
  have hexec := exec_digitRow (s := s) hrow
  rw [digitToken_of_le hle] at hexec
  exact exec_of_nextCharacter hexec hf hready

/-! ## The scan of a run (R104, R105, R108) -/

/-- Settles O49: the fresh record, for a host that is ready already. -/
theorem runStartsAFreshScan : Obligations.RunStartsAFreshScan := by
  intro cmdStr readTargets writeValues s hf hready
  have hexec : exec (.run cmdStr readTargets writeValues) s = act s { s with
      interp := Interp.initial cmdStr readTargets writeValues, running := true
      control := .ready } := rfl
  rw [hexec, act_of_no_fault hf, ← hready]
  rfl

section Scan
variable {s : State}

theorem fetch_of_character {b : Byte} (hrun : s.running = true)
    (hb : s.interp.cmdStr[s.interp.cursor]? = some b) : fetch s = .instr (decodeToken b) s := by
  simp [fetch, readCommandByte, hrun, hb]

theorem fetch_of_end (hrun : s.running = true)
    (hend : s.interp.cursor = s.interp.cmdStr.length) : fetch s = .other (endOfRun s) := by
  simp [fetch, readCommandByte, hrun, hend]

/-- The end of the command string is the host's next move (R108). -/
theorem step_of_end (h : HostMoves s) (hrun : s.running = true)
    (hend : s.interp.cursor = s.interp.cmdStr.length) :
    step s = .next (endOfRun (advance s)) := by
  rw [step_of_hostMoves h, fetch_of_end (s := advance s) hrun hend]
  rfl

end Scan

/-- Settles O24: the character is fetched, and the action is taken off the program and decoded. -/
theorem stepRunsTheDecodedInstruction : Obligations.StepRunsTheDecodedInstruction := by
  intro s hmoves
  refine ⟨fun ch i hrun hch hdecode => ?_, fun off v rest i hrun hprog hdecode => ?_,
    fun f rest i hrun hprog hdecode => ?_⟩
  · cases hdecode
    rw [step_of_hostMoves hmoves, fetch_of_character (s := advance s) hrun hch]
    rfl
  · rw [step_performs hmoves hrun hprog, perform_regWrite_ok _ hdecode]
    rfl
  · cases hdecode
    exact step_performs hmoves hrun hprog

/-- Settles O50: the end of a run with an operand left over, and with none. -/
theorem runEnds : Obligations.RunEnds := by
  intro s hmoves hrun hend
  rw [step_of_end hmoves hrun hend]
  rcases endOfRun_cases (advance s) with ⟨hleft, h⟩ | ⟨hread, hwrite, h⟩
  · exact ⟨fun _ => congrArg _ h, fun hread hwrite => hleft.elim (absurd hread) (absurd hwrite)⟩
  · refine ⟨fun hleft => hleft.elim (absurd hread) (absurd hwrite), fun _ _ => ?_⟩
    have ⟨_, hready, _⟩ := hmoves
    rw [h, ← hready]
    rfl

end Sys2Proof.Machine

namespace Sys2Proof.Machine

/-! ## Faults (60_exceptions.md R132, R133) -/

section Fault
variable {s : State}

/-- The first fault is recorded, and nothing else changes (R132). -/
theorem raise_of_no_fault (r : Fault) (hf : s.ctl.fault = none) :
    raise r s = { s with ctl := { s.ctl with fault := some r } } := by
  rw [raise, hf]
  rfl

/-- A fault that is held stays the one recorded (R132). -/
theorem raise_of_fault {r0 : Fault} (r : Fault) (hf : s.ctl.fault = some r0) : raise r s = s := by
  have hkept : some (s.ctl.fault.getD r) = s.ctl.fault := by rw [hf]; rfl
  rw [raise, hkept]

/-- Every row of the opcode table is a host action: `act` alone decides whether it is taken. -/
theorem exec_eq_act (i : Instr) (s : State) : ∃ t, exec i s = act s t := by
  cases i <;> exact ⟨_, rfl⟩

theorem exec_of_fault {r : Fault} (i : Instr) (hf : s.ctl.fault = some r) :
    exec i s = .fault r := by
  obtain ⟨t, hexec⟩ := exec_eq_act i s
  rw [hexec, act_of_fault hf]

theorem exec_of_no_fault (i : Instr) (hf : s.ctl.fault = none) : ∃ t, exec i s = .next t := by
  obtain ⟨t, hexec⟩ := exec_eq_act i s
  exact ⟨t, by rw [hexec, act_of_no_fault hf]⟩

theorem step_of_fault {r : Fault} (hf : s.ctl.fault = some r) : step s = .fault r := by
  rw [step, hf]

/-- An instruction that is fetched runs on the controller as it stands, so it finds no fault either. -/
theorem fetch_outcome_of_no_fault (hf : s.ctl.fault = none) :
    ∃ t, (fetch s).outcome = .next t := by
  have hmove := fetch_move s
  cases hfetch : fetch s with
  | other t => exact ⟨t, rfl⟩
  | instr i u =>
    rw [hfetch] at hmove
    have hctl : u.ctl = s.ctl := hmove
    exact exec_of_no_fault i (hctl ▸ hf)

theorem hostStep_of_no_fault (hf : s.ctl.fault = none) : ∃ t, hostStep s = .next t := by
  cases hcontrol : s.control with
  | polling k => exact ⟨_, hostStep_of_polling hcontrol⟩
  | ready =>
    rw [hostStep_of_ready hcontrol]
    exact fetch_outcome_of_no_fault hf

theorem step_of_no_fault (hf : s.ctl.fault = none) : ∃ t, step s = .next t := by
  have hhost : ∃ t, hostStep (advance s) = .next t := hostStep_of_no_fault hf
  cases hi : s.ctl.inflight with
  | none => rwa [step_of_idle hf hi]
  | some cmd =>
    cases hturn : s.turn with
    | host => rwa [step_of_hostTurn hf (.inr hturn)]
    | environment => exact ⟨_, step_of_environment hf hi hturn⟩

/-- The slot is looked for before the command is issued (R107, R133). -/
theorem readToken_of_no_slot (cmd : Command)
    (h : s.interp.readTargets.length ≤ s.interp.readIdx) :
    readToken cmd s = raise .operandUnderflow s :=
  if_neg (Nat.not_lt.mpr h)

/-- The value is looked for before the literal is touched (R119, R133). -/
theorem writeToken_of_no_value (h : s.interp.writeValues.length ≤ s.interp.writeIdx) :
    writeToken s = raise .operandUnderflow s := by
  rw [writeToken, readWriteValue, List.getElem?_eq_none h]

end Fault

/-- Settles O26: the two cases of a raise, and that `step` and `act` look at the fault first. -/
theorem faultIsTerminalAndSticky : Obligations.FaultIsTerminalAndSticky :=
  ⟨fun r _ hf => raise_of_no_fault r hf, fun r _ _ hf => raise_of_fault r hf,
    fun _ _ hf => ⟨step_of_fault hf, fun i => exec_of_fault i hf⟩⟩

/-- Settles O27: the environment completes, or the host takes a pass of its wait or its next move. -/
theorem unfaultedMachineAlwaysSteps : Obligations.UnfaultedMachineAlwaysSteps :=
  fun _ hf => ⟨step_of_no_fault hf, fun i => exec_of_no_fault i hf⟩

/-- Settles O60: the token's effect is the raise, in a machine that holds no fault. -/
theorem operandFaults : Obligations.OperandFaults := by
  refine ⟨fun i s hi hf hfull => ?_, fun i s hi hf hspent => ?_⟩
  · obtain ⟨cmd, hexec⟩ : ∃ cmd, exec i s = act s (readToken cmd s) := by
      rcases hi with rfl | rfl | rfl | rfl <;> exact ⟨_, rfl⟩
    rw [hexec, act_of_no_fault hf, readToken_of_no_slot cmd hfull, raise_of_no_fault _ hf]
  · have hexec : exec i s = act s (writeToken s) := by rcases hi with rfl | rfl <;> rfl
    rw [hexec, act_of_no_fault hf, writeToken_of_no_value hspent, raise_of_no_fault _ hf]

end Sys2Proof.Machine

namespace Sys2Proof.Machine

/-! ## Reset (70_reset_and_hazards.md R143, R144) -/

/-- FLAGS at reset: complete and not configured (R32). -/
theorem flagsWord_reset : flagsWord State.reset.ctl = 0x0001 := rfl

/-- The host of the reset state is ready, and nothing keeps it from its next move. -/
theorem reset_hostMoves : HostMoves State.reset := ⟨rfl, rfl, .inl rfl⟩

section Wait
variable {s : State}

/-- Outside a run, a host with no action pending has nothing to do (R144). -/
theorem fetch_of_no_action (hrun : s.running = false) (hprog : s.program = []) :
    fetch s = .other s := by
  simp [fetch, hrun, hprog]

/-- A step of a host with no action pending changes the free values alone (log entry 8). -/
theorem step_of_no_action (h : HostMoves s) (hrun : s.running = false) (hprog : s.program = []) :
    step s = .next (advance s) := by
  rw [step_of_hostMoves h, fetch_of_no_action (s := advance s) hrun hprog]
  rfl

end Wait

/-- Settles O1: the fields are those of the reset record, and each read is the case of R43 that an idle
controller with nothing written falls under. -/
theorem resetLeavesTheSpecifiedState : Obligations.ResetLeavesTheSpecifiedState := by
  have hidle : State.reset.ctl.inflight = none := rfl
  have hdata : State.reset.ctl.data = none := rfl
  have hbitrate : State.reset.ctl.configured = false := rfl
  refine ⟨⟨rfl, rfl, rfl, rfl⟩, hidle, hdata, hbitrate, rfl, rfl, rfl, rfl, rfl, fun codes => ?_⟩
  exact ⟨regRead_cmd, regRead_status hidle, regRead_data_unwritten hidle hdata,
    regRead_bitrate_unwritten hbitrate, regRead_flags.trans (congrArg _ flagsWord_reset)⟩

/-- Settles O3: at reset the host moves, no run is in progress and the host program is empty. -/
theorem machineWaitsForTheFirstAccess : Obligations.MachineWaitsForTheFirstAccess :=
  step_of_no_action reset_hostMoves rfl rfl

end Sys2Proof.Machine
